-- ==== Sys2Proof/Word.lean ====
section
/-! DEFINITION. Values of SHA256_CORE (spec/00_scope.md R9): bytes, words and dwords, all unsigned bit vectors. -/

namespace Sys2Proof

/-- R9: "A *byte* is an integer in 0..255." -/
abbrev Byte := BitVec 8

/-- R9: "A *word* is an integer in 0..2^32-1." Addition on it is `+` of R10, modulo 2^32. -/
abbrev Word := BitVec 32

/-- R9: "A *dword* is an integer in 0..2^64-1." -/
abbrev Dword := BitVec 64

end Sys2Proof
end

