-- ==== Sys2Proof/Syntax.lean ====
section
/-! DEFINITION. The six commands of SHA256_CORE (spec/30_encoding.md R74), one constructor per row of
spec/opcode_table.json. -/

namespace Sys2Proof

/-- A decoded command. The operand of a format I command is the 8-bit value of R73, so an operand out of range
cannot be written as a term of this type. -/
inductive Instr where
  /-- INIT (spec/43_driver_serializer.md R181). -/
  | init
  /-- PUSH imm (spec/41_padder.md R103): `imm` is the message byte. -/
  | push (imm : Byte)
  /-- PAD (spec/41_padder.md R105). -/
  | pad
  /-- COMPRESS (spec/42_compressor.md R160). -/
  | compress
  /-- FINALIZE (spec/43_driver_serializer.md R191). -/
  | finalize
  /-- RDREG r (spec/43_driver_serializer.md R200): `r` is the register number, assigned or not. -/
  | rdreg (r : Byte)
deriving DecidableEq, Repr

end Sys2Proof
end

