-- ==== Sys2Proof/WellFormed.lean ====
section
/-! DEFINITION. What a well-formed command is. An `Instr` is well formed by its type (R73: the operand is 8 bits).
Raw data enters the machine as 32-bit command words, so the checks stand on words; they are written from the match
and mask table and the field rules (spec/30_encoding.md R71, R72, R74), not from the decoder (R76). -/

namespace Sys2Proof

/-- R72: format N has no operand, format I has one 8-bit immediate. -/
inductive Format where
  | n
  | i
deriving DecidableEq, Repr

/-- One row of the opcode map, R74. -/
structure OpcodeRow where
  mnemonic  : String
  format    : Format
  matchBits : Word
  maskBits  : Word
deriving DecidableEq, Repr

/-- R74: the row of a command in the opcode map. -/
def Instr.row : Instr → OpcodeRow
  | .init     => ⟨"INIT", .n, 0x00000001, 0xFFFFFFFF⟩
  | .push _   => ⟨"PUSH", .i, 0x00000002, 0xFFFF00FF⟩
  | .pad      => ⟨"PAD", .n, 0x00000003, 0xFFFFFFFF⟩
  | .compress => ⟨"COMPRESS", .n, 0x00000004, 0xFFFFFFFF⟩
  | .finalize => ⟨"FINALIZE", .n, 0x00000005, 0xFFFFFFFF⟩
  | .rdreg _  => ⟨"RDREG", .i, 0x00000006, 0xFFFF00FF⟩

/-- R74: "A word w selects a mnemonic exactly when `(w & mask) = match`." -/
def OpcodeRow.selectedBy (row : OpcodeRow) (w : Word) : Bool :=
  w &&& row.maskBits == row.matchBits

/-- The six rows of R74, in the table's order. -/
def opcodeMap : List OpcodeRow :=
  [Instr.row .init, Instr.row (.push 0), Instr.row .pad, Instr.row .compress, Instr.row .finalize,
    Instr.row (.rdreg 0)]

/-- R77, first clause negated: OP is one of 0x1 to 0x6. -/
def opAssigned (w : Word) : Bool :=
  1 ≤ (w &&& 0x0000000F).toNat && (w &&& 0x0000000F).toNat ≤ 6

/-- R71: RSV_HI [31:16] and RSV_LO [7:4] "must be 0". -/
def reservedClear (w : Word) : Bool :=
  w &&& 0xFFFF00F0 == 0

/-- R72: OP 0x2 and 0x6 are format I, every other assigned OP is format N. -/
def takesOperand (w : Word) : Bool :=
  w &&& 0x0000000F == 2 || w &&& 0x0000000F == 6

/-- R71: IMM8 "for format N it must be 0". -/
def operandClear (w : Word) : Bool :=
  takesOperand w || w &&& 0x0000FF00 == 0

/-- R71, R72, R77: the words that are commands. Every other word is Illegal. -/
def wordWellFormed (w : Word) : Bool :=
  opAssigned w && reservedClear w && operandClear w

end Sys2Proof
end

