-- ==== Sys2Proof/Decode.lean ====
section
/-! DEFINITION. The decoder of R76 (spec/30_encoding.md), total on every 32-bit word, and the encoder written from
the bit patterns of R75. The port carries 32-bit values, not bytes (spec/20_memory.md R53), so no byte order is
involved. -/

namespace Sys2Proof

/-- Which clause of R77 makes a word Illegal. Executing any of them raises the same IllegalCommand (R222). -/
inductive IllegalWord where
  /-- OP is 0x0 or 0x7 to 0xF. -/
  | unassignedOpcode
  /-- OP is 0x1, 0x3, 0x4 or 0x5 and some bit of [31:4] is set. -/
  | bitsSetInFormatN
  /-- OP is 0x2 or 0x6 and some bit of [31:16] or [7:4] is set. -/
  | reservedSetInFormatI
deriving DecidableEq, Repr

/-- The answer of R76: `Command or Illegal`. -/
inductive Decoded where
  | command (i : Instr)
  | illegal (why : IllegalWord)
deriving DecidableEq, Repr

/-- R71: OP = cmd[3:0]. -/
def opField (w : Word) : BitVec 4 := w.extractLsb' 0 4

/-- R73: IMM8 = cmd[15:8], unsigned, never extended, scaled or shifted. -/
def immField (w : Word) : Byte := w.extractLsb' 8 8

/-- R71: RSV_LO = cmd[7:4]. -/
def rsvLoField (w : Word) : BitVec 4 := w.extractLsb' 4 4

/-- R71: RSV_HI = cmd[31:16]. -/
def rsvHiField (w : Word) : BitVec 16 := w.extractLsb' 16 16

/-- R72: cmd[31:4], which format N requires to be 0. -/
def aboveOpField (w : Word) : BitVec 28 := w.extractLsb' 4 28

/-- R72: a format N command, or the reason the word is none. -/
def decodeFormatN (w : Word) (i : Instr) : Decoded :=
  if aboveOpField w = 0 then .command i else .illegal .bitsSetInFormatN

/-- R72: a format I command with its operand (R73), or the reason the word is none. -/
def decodeFormatI (w : Word) (i : Byte → Instr) : Decoded :=
  if rsvHiField w = 0 ∧ rsvLoField w = 0 then .command (i (immField w)) else .illegal .reservedSetInFormatI

/-- R76: the decoder. -/
def decode (w : Word) : Decoded :=
  match (opField w).toNat with
  | 0x1 => decodeFormatN w .init
  | 0x2 => decodeFormatI w .push
  | 0x3 => decodeFormatN w .pad
  | 0x4 => decodeFormatN w .compress
  | 0x5 => decodeFormatN w .finalize
  | 0x6 => decodeFormatI w .rdreg
  | _   => .illegal .unassignedOpcode

/-- R75, format I: sixteen zeros, the operand, RSV_LO = 0 and OP. -/
def encodeFormatI (op : BitVec 4) (imm : Byte) : Word :=
  (0#16 ++ imm ++ 0#4 ++ op : BitVec 32)

/-- R75: the word of a command. -/
def encode : Instr → Word
  | .init     => 0x00000001
  | .push imm => encodeFormatI 0x2 imm
  | .pad      => 0x00000003
  | .compress => 0x00000004
  | .finalize => 0x00000005
  | .rdreg r  => encodeFormatI 0x6 r

/-- The command word whose lowest `nbits` bits are those of `w`, every bit above them 0 (R70: a command is exactly
one 32-bit word). -/
def tableWord (nbits w : Nat) : Word := BitVec.ofNat 32 (w % 2 ^ nbits)

/-- The command, if the word is one. -/
def Decoded.toOption : Decoded → Option Instr
  | .command i => some i
  | .illegal _ => none

/-- The command the decoder reads from an instruction of the opcode table, bits numbered as the table numbers them:
one 32-bit word, bit 0 its least significant. -/
def decodeTableWord (nbits w : Nat) : Option Instr :=
  (decode (tableWord nbits w)).toOption

end Sys2Proof
end

