-- ==== Sys2Proof/Machine/Bytes.lean ====
section
/-! DEFINITION. Byte order: every multi-byte quantity is big-endian, "the most significant byte comes first, at the
lowest position" (spec/20_memory.md R52). These are the only three places that order bytes. -/

namespace Sys2Proof.Machine

/-- R13: byte k of `BE32(w)` is `w[31-8k : 24-8k]`, for k = 0..3. -/
def be32 (w : Word) (k : Nat) : Byte := w.extractLsb' (24 - 8 * k) 8

/-- R13: byte k of `BE64(v)` is `v[63-8k : 56-8k]`, for k = 0..7. -/
def be64 (v : Dword) (k : Nat) : Byte := v.extractLsb' (56 - 8 * k) 8

/-- R52 item 1: the word `{b0, b1, b2, b3}`, b0 the most significant byte. -/
def wordOfBytes (b0 b1 b2 b3 : Byte) : Word := (b0 ++ b1 ++ b2 ++ b3 : BitVec 32)

end Sys2Proof.Machine
end

