-- ==== Sys2Proof/Config.lean ====
section
/-! DEFINITION. What an implementation fixes for one instance (spec/00_scope.md R7). The model has no free value:
the spec leaves no result of any command open. The parameter is a field of State (`State.cfg`), written by nothing,
so that every statement over all states holds for every capacity (DESIGN CHOICE, log entry 6). N_INST is the number
of instances of a `Platform` (Machine/Platform.lean), at least 1 by its type. -/

namespace Sys2Proof

/-- R7: the open parameter of an instance. -/
structure Config where
  /-- `MSG_CAP`, the capacity of the message buffer in bytes, "any integer with 0 <= MSG_CAP". -/
  msgCap : Nat
deriving DecidableEq, Repr

/-- R7: "Default 2^61 - 1." -/
def Config.default : Config := ⟨2 ^ 61 - 1⟩

end Sys2Proof
end

