-- ==== Sys2Proof/Machine/State.lean ====
section
/-! DEFINITION. The state of one SHA256_CORE instance (spec/10_state.md R20), the events of its port, and the state
after reset (R40). -/

namespace Sys2Proof.Machine

/-- R30: the Driver's phase. The codes 5 to 7 are "never produced" and have no constructor. -/
inductive Phase where
  /-- Code 0: after reset; no hash computation exists. -/
  | idle
  /-- Code 1: H = IV; the message buffer accepts PUSH. -/
  | init
  /-- Code 2: the document's `Absorbing(block_index)`; the index is BLK. -/
  | absorbing
  /-- Code 3: every block has been absorbed. -/
  | finalized
  /-- Code 4: only inside a PAD command; no command boundary shows it (R39 item 2). -/
  | padding
deriving DecidableEq, Repr

/-- The exceptions of the block (spec/60_exceptions.md R220). They are next states of the machine, not faults of the
model: the command ends with the code and the flag is set (R230). -/
inductive Exc where
  /-- Code 1, flag E_ILLEGAL. -/
  | illegalCommand
  /-- Code 2, flag E_MISUSE. -/
  | misuseError
  /-- Code 3, flag E_TOOLARGE. -/
  | inputTooLarge
deriving DecidableEq, Repr

/-- R78 (spec/30_encoding.md): what a command returns. -/
structure Response where
  rcode : Byte
  rdata : Word
deriving DecidableEq, Repr

/-- What can reach an instance from outside, between two commands. -/
inductive HostEvent where
  /-- The host issues a command word (spec/00_scope.md R14). -/
  | command (w : Word)
  /-- The platform drives the reset input (spec/70_reset_and_hazards.md R250). -/
  | reset
deriving DecidableEq, Repr

/-- R21: the eight chaining words H[0..7]. -/
abbrev Chain := Vector Word 8

/-- R35: the digest bytes DIGEST[0..31]. -/
abbrev Digest := Vector Byte 32

/-- R29: the message buffer, as the cells (position, byte) that hold a value, positions strictly rising. A position
that is not listed holds no value. -/
abbrev Memory := List Host.Cell

/-- Where the model stops because the spec says that no value exists. No state that satisfies the invariant of R39
(`State.Inv`, Sys2Proof/Safety.lean) reaches one. -/
inductive Fault where
  /-- A command needs H and H holds no value although the phase is not IDLE (spec/93 U1). Raised by COMPRESS,
  FINALIZE and RDREG. Safe: the model stops, in states no run reaches. -/
  | chainHoldsNoValue
  /-- RDREG of a digest byte while DVALID = 1 and DIGEST holds no value (spec/93 U2). Safe: the model stops, in
  states no run reaches. -/
  | digestHoldsNoValue
  /-- The framer reads a position of MSG that holds no value (spec/93 U3, R29, R51). Raised by COMPRESS. Safe: the
  model stops, in states no run reaches. -/
  | messageHoldsNoValue
  /-- Pad or Block outside its range (spec/41_padder.md R114: "A model defines it as a fault, not as a value"; spec/93
  U4). Raised by COMPRESS. Safe: the model stops, in states no run reaches. -/
  | framerOutOfRange
deriving DecidableEq, Repr

/-- What the model gives no meaning. No command is refused: the one configuration that is, is the platform's. -/
inductive Refusal where
  /-- A command without a meaning in this model. Raised by none: every command has its meaning. Safe. -/
  | notModelled (mnemonic : String)
  /-- A second host drives an instance (spec/20_memory.md R64: "A model does not admit that configuration: it refuses
  it"; spec/93 U11). Raised by `Platform.issue`. Safe: nothing is claimed of it. -/
  | secondHost
deriving DecidableEq, Repr

/-- One instance (R20), with the model's own record of its port. The working variables, the schedule and the round
counter "do not exist between commands" (R25 to R27) and are no fields; IV and K are constants (R8, R254). -/
structure State where
  /-- The open parameter MSG_CAP of this instance (R7); nothing writes it. -/
  cfg : Config
  /-- PHASE (R30). -/
  phase : Phase
  /-- H0..H7 (R21). R23: "A model keeps H as \"no value\" and does not pick a number." -/
  h : Option Chain
  /-- MSG (R29). -/
  msg : Memory
  /-- LCNT (R28): the bit length of the bytes accepted so far. -/
  lcnt : Dword
  /-- BLK (R31): the blocks absorbed since PAD. -/
  blk : Dword
  /-- NBLK (R32): the blocks in the padded message. -/
  nblk : Dword
  /-- DIGEST[0..31] (R35). "While DVALID = 0, DIGEST holds no value". -/
  digest : Option Digest
  /-- DVALID (R35). -/
  dvalid : Bool
  /-- E_MISUSE (R37, R38), sticky. -/
  eMisuse : Bool
  /-- E_TOOLARGE (R37, R38), sticky. -/
  eTooLarge : Bool
  /-- E_ILLEGAL (R37, R38), sticky. -/
  eIllegal : Bool
  /-- The MODEL's own: the events issued to the instance and not yet taken, oldest first (log entry 1). -/
  port : List HostEvent
  /-- The MODEL's own: the responses returned so far, oldest first (R78; log entry 1). -/
  responses : List Response
  /-- The fault log of spec/60_exceptions.md R235, oldest first: "A model keeps a fault log of its own". -/
  faultLog : List Exc
deriving DecidableEq, Repr

/-- R40: an instance of the given configuration right after reset, with nothing issued to it yet. H, MSG and DIGEST
hold no value. -/
def State.resetWith (c : Config) : State where
  cfg := c
  phase := .idle
  h := none
  msg := []
  lcnt := 0
  blk := 0
  nblk := 0
  digest := none
  dvalid := false
  eMisuse := false
  eTooLarge := false
  eIllegal := false
  port := []
  responses := []
  faultLog := []

/-- R40, with the default capacity of R7. -/
def State.reset : State := State.resetWith Config.default

end Sys2Proof.Machine
end

