-- ==== Sys2Proof/Machine/Flags.lean ====
section
/-! DEFINITION. The error flags, the lock and the STATUS register (spec/10_state.md R37, R38; spec/60_exceptions.md
R220, R233). There are no arithmetic flags (R38). -/

namespace Sys2Proof.Machine

/-- R30: the 3-bit code of a phase. -/
def phaseCode : Phase → BitVec 3
  | .idle      => 0
  | .init      => 1
  | .absorbing => 2
  | .finalized => 3
  | .padding   => 4

/-- R37: `STATUS = {25'b0, E_ILLEGAL, E_TOOLARGE, E_MISUSE, DVALID, PHASE}`. -/
def statusWord (s : State) : Word :=
  (0#25 ++ BitVec.ofBool s.eIllegal ++ BitVec.ofBool s.eTooLarge ++ BitVec.ofBool s.eMisuse ++
    BitVec.ofBool s.dvalid ++ phaseCode s.phase : BitVec 32)

/-- R233: "The core is *locked* when `E_MISUSE | E_TOOLARGE | E_ILLEGAL = 1`." -/
def locked (s : State) : Bool :=
  s.eMisuse || s.eTooLarge || s.eIllegal

/-- R220: the code of an exception, which is the RCODE of the response. -/
def excCode : Exc → Byte
  | .illegalCommand => 1
  | .misuseError    => 2
  | .inputTooLarge  => 3

/-- R220: the flag of an exception. -/
def State.flag (s : State) : Exc → Bool
  | .illegalCommand => s.eIllegal
  | .misuseError    => s.eMisuse
  | .inputTooLarge  => s.eTooLarge

/-- R230: `flag(E) <- 1`. -/
def State.setFlag (s : State) : Exc → State
  | .illegalCommand => { s with eIllegal := true }
  | .misuseError    => { s with eMisuse := true }
  | .inputTooLarge  => { s with eTooLarge := true }

end Sys2Proof.Machine
end

