-- ==== Sys2Proof/Machine/Ops.lean ====
section
/-! DEFINITION. The named operations over the state: the message buffer (spec/20_memory.md R51), raising an
exception (spec/60_exceptions.md R230), responding (spec/30_encoding.md R78) and the reset event
(spec/70_reset_and_hazards.md R250). -/

namespace Sys2Proof.Machine

/-- What one command or one event answers. -/
abbrev Result := Host.Outcome State Fault Refusal

/-- The byte a position of the buffer holds, if it holds one (R29). -/
def Memory.read : Memory → Nat → Option Byte
  | [], _ => none
  | (a, b) :: m, p => if p = a then some b else Memory.read m p

/-- The buffer with byte b at position p. It keeps the positions strictly rising. -/
def Memory.write : Memory → Nat → Byte → Memory
  | [], p, b => [(p, b)]
  | (a, c) :: m, p, b =>
    if p < a then (p, b) :: (a, c) :: m
    else if p = a then (p, b) :: m
    else (a, c) :: Memory.write m p b

/-- The canonical form: positions strictly rising. (An unlisted position holds no value, so no cell can hold what an
unlisted position reads as.) -/
abbrev Memory.wf (m : Memory) : Prop := m.Pairwise fun c d => c.1 < d.1

/-- R104: 2^61 - 1, the longest message whose bit length fits the length field. -/
def maxMessageBytes : Nat := 2 ^ 61 - 1

/-- R7: `CAP_EFF = min(MSG_CAP, 2^61 - 1)`. -/
def State.capEff (s : State) : Nat := min s.cfg.msgCap maxMessageBytes

/-- R28: `LEN = LCNT >> 3`, the number of message bytes held. -/
def State.len (s : State) : Nat := (s.lcnt >>> 3).toNat

/-- R51: `MsgRead(p)`, "defined only for 0 <= p < LEN". Elsewhere there is no value: a fault (spec/93 U3). -/
def msgRead (s : State) (p : Nat) : Except Fault Byte :=
  if p < s.len then
    match Memory.read s.msg p with
    | some b => .ok b
    | none => .error .messageHoldsNoValue
  else .error .messageHoldsNoValue

/-- R51, R103: `MSG[LEN] <- b` and `LCNT <- LCNT + 8`. -/
def State.append (s : State) (b : Byte) : State :=
  { s with msg := Memory.write s.msg s.len b, lcnt := s.lcnt + 8 }

/-- R78: the response goes to the host. -/
def State.reply (s : State) (r : Response) : State :=
  { s with responses := s.responses ++ [r] }

/-- R235: the fault log "records every exception any command raised, in order". -/
def State.logExc (s : State) (e : Exc) : State :=
  { s with faultLog := s.faultLog ++ [e] }

/-- R230, R235: the state after an exception: its flag, the response (code, 0) and the log entry. -/
def State.raised (s : State) (e : Exc) : State :=
  ((s.setFlag e).reply ⟨excCode e, 0⟩).logExc e

/-- R230: `raise E`. The command ends here and no other state changes. -/
def raise (e : Exc) (s : State) : Result := .next (s.raised e)

/-- R78: `respond(d)`, the response (0, d). -/
def respond (d : Word) (s : State) : Result := .next (s.reply ⟨0, d⟩)

/-- R250: the reset event sets every piece of the hardware's state to its value of R40. It returns no response. The
parameter, the host's side of the port and the fault log (R235: never cleared) are not hardware state and stay (log
entry 7). -/
def State.resetEvent (s : State) : State :=
  { s with
    phase := .idle, h := none, msg := [], lcnt := 0, blk := 0, nblk := 0, digest := none, dvalid := false,
    eMisuse := false, eTooLarge := false, eIllegal := false }

end Sys2Proof.Machine
end

