-- ==== Sys2Proof/Machine/Padder.lean ====
section
/-! DEFINITION. The message padder (spec/41_padder.md): the length counter, the terminator and zero-fill logic, the
block framer, and the commands PUSH and PAD. -/

namespace Sys2Proof.Machine

/-- R106, R112: the 64 bytes of one block. -/
abbrev Block := Vector Byte 64

/-- R107: `NBLK(n) = floor((n + 8) / 64) + 1`. -/
def blockCount (n : Nat) : Nat := (n + 8) / 64 + 1

/-- R110: the length P = 64 x NBLK of the padded message. -/
def State.paddedLength (s : State) : Nat := 64 * s.nblk.toNat

/-- R110: "Pad is defined only while PHASE is ABSORBING or FINALIZED". -/
def State.framed (s : State) : Bool :=
  s.phase = .absorbing || s.phase = .finalized

/-- R110: `Pad(p)`, byte p of the padded message, placed by position and not by value. Outside its range it is a
fault (R114). -/
def padByte (s : State) (p : Nat) : Except Fault Byte :=
  if s.framed = false ∨ s.paddedLength ≤ p then .error .framerOutOfRange
  else if p < s.len then msgRead s p
  else if p = s.len then .ok 0x80
  else if p < s.paddedLength - 8 then .ok 0x00
  else .ok (be64 s.lcnt (p - (s.paddedLength - 8)))

/-- The n bytes `Pad(start) .. Pad(start + n - 1)`, or the first fault among them. -/
def padBytes (s : State) (start : Nat) : (n : Nat) → Except Fault (Vector Byte n)
  | 0 => .ok #v[]
  | n + 1 =>
    match padBytes s start n with
    | .error f => .error f
    | .ok v =>
      match padByte s (start + n) with
      | .error f => .error f
      | .ok b => .ok (v.push b)

/-- R112: `Block(i) = [Pad(64i), ..., Pad(64i + 63)]` for 0 <= i < NBLK. Outside that range it is a fault (R114). -/
def blockAt (s : State) (i : Nat) : Except Fault Block :=
  if i < s.nblk.toNat then padBytes s (64 * i) 64 else .error .framerOutOfRange

/-- R103: PUSH, append one message byte. -/
def execPush (imm : Byte) (s : State) : Result :=
  if locked s then raise .misuseError s
  else if s.phase ≠ .init then raise .misuseError s
  else if s.capEff ≤ s.len then raise .inputTooLarge s
  else respond 0 (s.append imm)

/-- R105, first half: `PHASE <- PADDING`, the document's `Padding`, never seen at a command boundary. -/
def State.startPadding (s : State) : State := { s with phase := .padding }

/-- R105, second half: NBLK, BLK and the move to `Absorbing(0)`. -/
def State.frame (s : State) : State :=
  { s with nblk := BitVec.ofNat 64 (blockCount s.len), blk := 0, phase := .absorbing }

/-- R105: PAD, end the message and frame it. -/
def execPad (s : State) : Result :=
  if locked s then raise .misuseError s
  else if s.phase ≠ .init then raise .misuseError s
  else respond 0 s.startPadding.frame

end Sys2Proof.Machine
end

