-- ==== Sys2Proof/Machine/Compressor.lean ====
section
/-! DEFINITION. The compressor (spec/42_compressor.md): the bit-level primitives, the schedule expander, the round
datapath, the state update, and the command COMPRESS. Every `+` on words is modulo 2^32 (R132). -/

namespace Sys2Proof.Machine

/-- R130: `rotr(x, n) = (x >> n) | (x << (32 - n))` for 1 <= n <= 31, and `rotr(x, 0) = x` (at n = 0 the left shift
by 32 gives 0). -/
def rotr (x : Word) (n : Nat) : Word := (x >>> n) ||| (x <<< (32 - n))

/-- R133: the schedule function σ0. -/
def sig0 (x : Word) : Word := rotr x 7 ^^^ rotr x 18 ^^^ (x >>> 3)

/-- R134: the schedule function σ1. -/
def sig1 (x : Word) : Word := rotr x 17 ^^^ rotr x 19 ^^^ (x >>> 10)

/-- R135: the round function Σ0. -/
def ep0 (x : Word) : Word := rotr x 2 ^^^ rotr x 13 ^^^ rotr x 22

/-- R136: the round function Σ1. -/
def ep1 (x : Word) : Word := rotr x 6 ^^^ rotr x 11 ^^^ rotr x 25

/-- R137: `CH(x, y, z) = (x & y) ^ ((~x) & z)`. -/
def ch (x y z : Word) : Word := (x &&& y) ^^^ (~~~x &&& z)

/-- R138: `MAJ(x, y, z) = (x & y) ^ (x & z) ^ (y & z)`. -/
def maj (x y z : Word) : Word := (x &&& y) ^^^ (x &&& z) ^^^ (y &&& z)

/-- R145: W[0..15], each the big-endian word of four block bytes. -/
def loadWords (b : Block) : Vector Word 16 :=
  Vector.ofFn fun t => wordOfBytes b[4 * t.val] b[4 * t.val + 1] b[4 * t.val + 2] b[4 * t.val + 3]

/-- R146: `W[t] = SIG1(W[t-2]) + W[t-7] + SIG0(W[t-15]) + W[t-16]`, from the first t = 16 + k words. -/
def nextWord {k : Nat} (w : Vector Word (16 + k)) : Word :=
  sig1 w[16 + k - 2] + w[16 + k - 7] + sig0 w[16 + k - 15] + w[16 + k - 16]

/-- R146: the first 16 + k words of the schedule, in increasing t. -/
def expand (b : Block) : (k : Nat) → Vector Word (16 + k)
  | 0 => loadWords b
  | k + 1 => (expand b k).push (nextWord (expand b k))

/-- R147: `Sched(B)`, the 64 words W[0..63]. -/
def sched (b : Block) : Vector Word 64 := expand b 48

/-- R25: the working variables. -/
structure Working where
  a : Word
  b : Word
  c : Word
  d : Word
  e : Word
  f : Word
  g : Word
  h : Word
deriving DecidableEq, Repr

/-- R152: `(a, ..., h) <- (H[0], ..., H[7])`. -/
def loadWorking (hv : Chain) : Working := ⟨hv[0], hv[1], hv[2], hv[3], hv[4], hv[5], hv[6], hv[7]⟩

/-- R150: t1, from the values before the round. -/
def roundT1 (v : Working) (k w : Word) : Word := v.h + ep1 v.e + ch v.e v.f v.g + k + w

/-- R150: t2, from the values before the round. -/
def roundT2 (v : Working) : Word := ep0 v.a + maj v.a v.b v.c

/-- R150: the round function, given K[t] and W[t]. -/
def roundStep (v : Working) (k w : Word) : Working :=
  ⟨roundT1 v k w + roundT2 v, v.a, v.b, v.c, v.d + roundT1 v k w, v.e, v.f, v.g⟩

/-- R153: the working variables after rounds 0 .. t-1, in that order. -/
def runRounds (w : Vector Word 64) (v : Working) : (t : Nat) → t ≤ 64 → Working
  | 0, _ => v
  | t + 1, ht => roundStep (runRounds w v t (Nat.le_of_succ_le ht)) (kRom ⟨t, ht⟩) w[t]

/-- R154: `H'[j] = H[j] + v[j]`, a..h in order. -/
def addBack (hv : Chain) (v : Working) : Chain :=
  #v[hv[0] + v.a, hv[1] + v.b, hv[2] + v.c, hv[3] + v.d, hv[4] + v.e, hv[5] + v.f, hv[6] + v.g, hv[7] + v.h]

/-- R155: `Compress(H, B)`, a pure function (R156 to R158). -/
def compress (c : Chain) (b : Block) : Chain :=
  addBack c (runRounds (sched b) (loadWorking c) 64 (Nat.le_refl 64))

/-- R160: all eight words of H at once, `BLK <- BLK + 1`, and FINALIZED after the last block. -/
def State.absorb (s : State) (c : Chain) : State :=
  { s with
    h := some c, blk := s.blk + 1, phase := if s.blk + 1 = s.nblk then .finalized else s.phase }

/-- R160: COMPRESS, absorb the next block. H without a value, or a block out of range, is a fault (spec/93 U1, U4):
no reachable state shows one. -/
def execCompress (s : State) : Result :=
  if locked s then raise .misuseError s
  else if s.phase ≠ .absorbing then raise .misuseError s
  else
    match s.h, blockAt s s.blk.toNat with
    | none, _ => .fault .chainHoldsNoValue
    | some _, .error f => .fault f
    | some c, .ok b => respond 0 (s.absorb (compress c b))

end Sys2Proof.Machine
end

