-- ==== Sys2Proof/Machine/Operands.lean ====
section
/-! DEFINITION. The operand of RDREG: the register space of spec/10_state.md R36. (The operand of PUSH is the byte
itself, spec/30_encoding.md R73.) -/

namespace Sys2Proof.Machine

/-- R36: the registers of the space, by name. -/
inductive Reg where
  | chain (j : Fin 8)
  | status
  | lcntLo
  | lcntHi
  | blkLo
  | blkHi
  | nblkLo
  | nblkHi
  | digest (k : Fin 32)
deriving DecidableEq, Repr

/-- R36, number column: the register of a number, `none` for 0x0F..0x1F and 0x40..0xFF, which are unassigned. -/
def regOfNumber (r : Byte) : Option Reg :=
  if h : r.toNat < 0x08 then some (.chain ⟨r.toNat, h⟩)
  else if r.toNat = 0x08 then some .status
  else if r.toNat = 0x09 then some .lcntLo
  else if r.toNat = 0x0A then some .lcntHi
  else if r.toNat = 0x0B then some .blkLo
  else if r.toNat = 0x0C then some .blkHi
  else if r.toNat = 0x0D then some .nblkLo
  else if r.toNat = 0x0E then some .nblkHi
  else if h : 0x20 ≤ r.toNat ∧ r.toNat < 0x40 then some (.digest ⟨r.toNat - 0x20, by omega⟩)
  else none

/-- R36, last column: when a read of the register raises MisuseError. -/
def readIsMisuse (s : State) : Reg → Bool
  | .chain _  => s.phase = .idle
  | .digest _ => !s.dvalid
  | _         => false

/-- Bits [31:0] of a 64-bit counter (R36, the _LO registers). -/
def lowWord (v : Dword) : Word := v.extractLsb' 0 32

/-- Bits [63:32] of a 64-bit counter (R36, the _HI registers). -/
def highWord (v : Dword) : Word := v.extractLsb' 32 32

/-- R36, value column: `reg(r)`. A word of H or a byte of DIGEST that holds no value is a fault (spec/93 U1, U2). -/
def regValue (s : State) : Reg → Except Fault Word
  | .chain j =>
    match s.h with
    | some hv => .ok hv[j]
    | none => .error .chainHoldsNoValue
  | .status => .ok (statusWord s)
  | .lcntLo => .ok (lowWord s.lcnt)
  | .lcntHi => .ok (highWord s.lcnt)
  | .blkLo  => .ok (lowWord s.blk)
  | .blkHi  => .ok (highWord s.blk)
  | .nblkLo => .ok (lowWord s.nblk)
  | .nblkHi => .ok (highWord s.nblk)
  | .digest k =>
    match s.digest with
    | some d => .ok (d[k].zeroExtend 32)
    | none => .error .digestHoldsNoValue

end Sys2Proof.Machine
end

