-- ==== Sys2Proof/Machine/Driver.lean ====
section
/-! DEFINITION. The Digest Driver and serializer (spec/43_driver_serializer.md): the commands INIT, FINALIZE and
RDREG. The transitions of R180 are those of these meanings and of Padder.lean and Compressor.lean. -/

namespace Sys2Proof.Machine

/-- R181: the state a fresh hash computation starts from. MSG and DIGEST hold no value (R29, R35). -/
def State.start (s : State) : State :=
  { s with
    h := some iv, lcnt := 0, msg := [], blk := 0, nblk := 0, dvalid := false, digest := none,
    eMisuse := false, eTooLarge := false, eIllegal := false, phase := .init }

/-- R181: INIT runs in every phase, and also while the core is locked. -/
def execInit (s : State) : Result := respond 0 s.start

/-- R190: `Ser(H)`: `D[4j + k] = H[j][31 - 8k : 24 - 8k]`. -/
def ser (hv : Chain) : Digest := Vector.ofFn fun i => be32 hv[i.val / 4] (i.val % 4)

/-- R191: `DIGEST[0..31] <- Ser(H)` and `DVALID <- 1`. -/
def State.serialize (s : State) (c : Chain) : State :=
  { s with digest := some (ser c), dvalid := true }

/-- R191: FINALIZE, serialize the digest. H without a value is a fault (spec/93 U1): no reachable state shows it. -/
def execFinalize (s : State) : Result :=
  if locked s then raise .misuseError s
  else if s.phase ≠ .finalized then raise .misuseError s
  else if s.dvalid then raise .misuseError s
  else
    match s.h with
    | none => .fault .chainHoldsNoValue
    | some c => respond 0 (s.serialize c)

/-- R200: RDREG, read one register. It is not refused while the core is locked. -/
def execRdreg (r : Byte) (s : State) : Result :=
  match regOfNumber r with
  | none => raise .illegalCommand s
  | some reg =>
    if readIsMisuse s reg then raise .misuseError s
    else
      match regValue s reg with
      | .error f => .fault f
      | .ok d => respond d s

end Sys2Proof.Machine
end

