-- ==== Sys2Proof/Machine/Dispatch.lean ====
section
/-! DEFINITION. One arm per command of Instr. -/

namespace Sys2Proof.Machine

/-- The meaning of a command (spec/30_encoding.md R74). -/
def exec (i : Instr) (s : State) : Host.Outcome State Fault Refusal :=
  match i with
  | .init => Sys2Proof.Machine.execInit s
  | .push imm => Sys2Proof.Machine.execPush imm s
  | .pad => Sys2Proof.Machine.execPad s
  | .compress => Sys2Proof.Machine.execCompress s
  | .finalize => Sys2Proof.Machine.execFinalize s
  | .rdreg r => Sys2Proof.Machine.execRdreg r s

end Sys2Proof.Machine
end

