-- ==== Sys2Proof/Machine/Port.lean ====
section
/-! DEFINITION. The command port: how one event of the host or the platform is taken (spec/00_scope.md R5, R14;
spec/70_reset_and_hazards.md R250). There is no program counter and no fetch (spec/10_state.md R33; spec/20_memory.md
R66): the host issues each command, and the pending ones stand in `State.port` (log entries 1 and 2). -/

namespace Sys2Proof.Machine

/-- Executing one command word: the decoded command, or IllegalCommand for an Illegal word (spec/30_encoding.md R76,
R77; spec/60_exceptions.md R222). -/
def runWord (w : Word) (s : State) : Result :=
  match decode w with
  | .command i => exec i s
  | .illegal _ => raise .illegalCommand s

/-- One event taken from the port. -/
def takeEvent (e : HostEvent) (s : State) : Result :=
  match e with
  | .command w => runWord w s
  | .reset => .next s.resetEvent

/-- The oldest event of the port is taken off it and handled, before the next (R62). With no event the core "holds its
state" (spec/60_exceptions.md R246): the step changes nothing (DEDUCED, log entry 3). -/
def servePort (s : State) : Result :=
  match s.port with
  | [] => .next s
  | e :: rest => takeEvent e { s with port := rest }

/-- The port with one more word, to be taken first. -/
def State.issueFirst (s : State) (w : Word) : State :=
  { s with port := .command w :: s.port }

end Sys2Proof.Machine
end

