-- ==== Sys2Proof/Machine/Step.lean ====
section
/-! DEFINITION. One step of an instance: one event of its port (spec/00_scope.md R5: "one step per command"). -/

namespace Sys2Proof.Machine

/-- One step. -/
def step (s : State) : Host.Outcome State Fault Refusal := servePort s

/-- `s` with the given command word issued on its port, to be taken by the very next step (log entry 2). -/
def State.withFetchWord (s : State) (nbits w : Nat) : State := s.issueFirst (tableWord nbits w)

end Sys2Proof.Machine
end

