-- ==== Sys2Proof/Machine/MicroStep.lean ====
section
/-! DEFINITION. The micro-step view of COMPRESS (spec/42_compressor.md R161; spec/10_state.md R25 to R27): a load
step, 64 round steps and an update step over the working variables, the schedule and the round counter; and the same
with the 16-word schedule expander of R148. The host sees neither (spec/20_memory.md R58): exec uses `compress`, and
both views must give the same H. -/

namespace Sys2Proof.Machine

/-- n steps of a function. -/
def stepTimes {α : Type} (f : α → α) : Nat → α → α
  | 0, x => x
  | n + 1, x => f (stepTimes f n x)

/-- The state inside one COMPRESS: W (R26), a..h (R25) and t (R27). -/
structure Engine where
  w : Vector Word 64
  v : Working
  t : Nat
deriving DecidableEq, Repr

/-- R161 step 1. -/
def Engine.load (c : Chain) (b : Block) : Engine := ⟨sched b, loadWorking c, 0⟩

/-- R161 step 2: one round, for t in 0..63. After the last round the engine stands still. -/
def Engine.round (e : Engine) : Engine :=
  if h : e.t < 64 then ⟨e.w, roundStep e.v (kRom ⟨e.t, h⟩) e.w[e.t], e.t + 1⟩ else e

/-- R161 step 3, the new H. -/
def Engine.update (e : Engine) (c : Chain) : Chain := addBack c e.v

/-- R161: the 66 steps of one compression. -/
def microCompress (c : Chain) (b : Block) : Chain :=
  (stepTimes Engine.round 64 (Engine.load c b)).update c

/-- R148: the state of a realisation that keeps only the 16 most recent schedule words, W[t] first. -/
structure WindowEngine where
  window : Vector Word 16
  v : Working
  t : Nat
deriving DecidableEq, Repr

/-- R148, R145: the window starts as W[0..15]. -/
def WindowEngine.load (c : Chain) (b : Block) : WindowEngine := ⟨loadWords b, loadWorking c, 0⟩

/-- R148: the word that enters the window is `W[t+16] = SIG1(W[t+14]) + W[t+9] + SIG0(W[t+1]) + W[t]`. -/
def windowNext (w : Vector Word 16) : Word := sig1 w[14] + w[9] + sig0 w[1] + w[0]

/-- R148: the window moves by one word. -/
def windowShift (w : Vector Word 16) : Vector Word 16 :=
  #v[w[1], w[2], w[3], w[4], w[5], w[6], w[7], w[8], w[9], w[10], w[11], w[12], w[13], w[14], w[15], windowNext w]

/-- R148: one round, reading W[t] from the front of the window. -/
def WindowEngine.round (e : WindowEngine) : WindowEngine :=
  if h : e.t < 64 then ⟨windowShift e.window, roundStep e.v (kRom ⟨e.t, h⟩) e.window[0], e.t + 1⟩ else e

/-- R148: one compression with the 16-word expander. -/
def windowCompress (c : Chain) (b : Block) : Chain :=
  addBack c (stepTimes WindowEngine.round 64 (WindowEngine.load c b)).v

/-- R151: the round written as the document's sequential assignments `h=g; g=f; f=e; e=d+t1; d=c; c=b; b=a; a=t1+t2`,
with t1 and t2 computed first. -/
def roundSequential (v : Working) (k w : Word) : Working :=
  let t1 := roundT1 v k w
  let t2 := roundT2 v
  let v := { v with h := v.g }
  let v := { v with g := v.f }
  let v := { v with f := v.e }
  let v := { v with e := v.d + t1 }
  let v := { v with d := v.c }
  let v := { v with c := v.b }
  let v := { v with b := v.a }
  { v with a := t1 + t2 }

end Sys2Proof.Machine
end

