-- ==== Sys2Proof/Machine/Assembler.lean ====
section
/-! DEFINITION. The assembler's notation (spec/30_encoding.md R79) and the pseudo-commands (R80). A tool of the
host, not a part of the block: nothing in `step` uses it. -/

namespace Sys2Proof.Machine

/-- R80: `PUSHS m`. -/
def pushes (m : List Byte) : List Instr := m.map .push

/-- R80: `ABSORB k`. -/
def absorbs (k : Nat) : List Instr := List.replicate k .compress

/-- R80: `RDDIGEST`, `RDREG 0x20` to `RDREG 0x3F`. -/
def readDigest : List Instr := (List.range 32).map fun k => .rdreg (BitVec.ofNat 8 (0x20 + k))

/-- R80: `HASH m`. -/
def hashCommands (m : List Byte) : List Instr :=
  .init :: pushes m ++ .pad :: absorbs (blockCount m.length) ++ .finalize :: readDigest

/-- What one line of assembly is. -/
inductive AsmLine where
  /-- No command: blank, or a comment. -/
  | blank
  | command (i : Instr)
  /-- R79: "An operand out of range is an assembly error. The assembler never encodes it." So is every line that is
  neither a command nor blank; that a pseudo-command's line is one is a DESIGN CHOICE (log entry 11). -/
  | error
deriving DecidableEq, Repr

/-- The word of a line, if it holds a command. -/
def AsmLine.word : AsmLine → Option Word
  | .command i => some (encode i)
  | _ => none

/-- The value of one digit in the given base. -/
def digitValue (base : Nat) (c : Char) : Option Nat :=
  let v :=
    if '0' ≤ c ∧ c ≤ '9' then some (c.toNat - '0'.toNat)
    else if 'a' ≤ c ∧ c ≤ 'f' then some (c.toNat - 'a'.toNat + 10)
    else if 'A' ≤ c ∧ c ≤ 'F' then some (c.toNat - 'A'.toNat + 10)
    else none
  v.filter (· < base)

/-- The value of a row of digits, from the value of those before it. -/
def digitsValue (base : Nat) : Nat → List Char → Option Nat
  | acc, [] => some acc
  | acc, c :: cs =>
    match digitValue base c with
    | some d => digitsValue base (base * acc + d) cs
    | none => none

/-- R79: a number "written in decimal or as `0x..` hex". -/
def numberValue : List Char → Option Nat
  | [] => none
  | '0' :: 'x' :: c :: cs => digitsValue 16 0 (c :: cs)
  | cs => digitsValue 10 0 cs

/-- R79: a character literal `'c'` stands for the character's ASCII code. -/
def charValue : List Char → Option Nat
  | [q, c, q'] => if q = '\'' ∧ q' = '\'' ∧ c.toNat < 128 then some c.toNat else none
  | _ => none

/-- R79: an operand is in 0..255. -/
def byteOperand (n : Nat) : Option Byte := if n < 256 then some (BitVec.ofNat 8 n) else none

/-- R79, R36: the register names that carry no index. -/
def plainRegName (cs : List Char) : Option Nat :=
  if cs = "STATUS".toList then some 0x08
  else if cs = "LCNT_LO".toList then some 0x09
  else if cs = "LCNT_HI".toList then some 0x0A
  else if cs = "BLK_LO".toList then some 0x0B
  else if cs = "BLK_HI".toList then some 0x0C
  else if cs = "NBLK_LO".toList then some 0x0D
  else if cs = "NBLK_HI".toList then some 0x0E
  else none

/-- R79, R36: the names H0..H7 and DIGEST0..DIGEST31, with no leading zero in the index. -/
def indexedRegName (cs : List Char) : Option Nat :=
  match (List.range 8).find? fun j => cs = 'H' :: Nat.toDigits 10 j with
  | some j => some j
  | none =>
    match (List.range 32).find? fun k => cs = "DIGEST".toList ++ Nat.toDigits 10 k with
    | some k => some (0x20 + k)
    | none => none

/-- R79: the value of a `<byte>` operand. -/
def byteValue (cs : List Char) : Option Byte :=
  (match charValue cs with | some n => some n | none => numberValue cs).bind byteOperand

/-- R79: the value of a `<reg>` operand, a number or a name. -/
def regNumberOf (cs : List Char) : Option Byte :=
  (match plainRegName cs with
    | some n => some n
    | none => match indexedRegName cs with | some n => some n | none => numberValue cs).bind byteOperand

/-- Where the reading of a line stands: between words, in a word, or after the opening quote of a character
literal. -/
inductive LexMode where
  | between
  | inWord
  | quoted
deriving DecidableEq, Repr

/-- The words of a line up to its comment (R79: "A comment starts with `;`"). A `;` or a space right after an opening
quote is the literal's character. Words are parted by spaces and tabs (DESIGN CHOICE, log entry 11). -/
def lexLine : LexMode → List Char → List Char → List (List Char)
  | _, [], [] => []
  | _, w, [] => [w.reverse]
  | .quoted, w, c :: cs => lexLine .inWord (c :: w) cs
  | mode, w, c :: cs =>
    if c = ';' then (if w = [] then [] else [w.reverse])
    else if c = ' ' ∨ c = '\t' then
      (if w = [] then lexLine .between [] cs else w.reverse :: lexLine .between [] cs)
    else if c = '\'' ∧ mode = .between then lexLine .quoted [c] cs
    else lexLine .inWord (c :: w) cs

/-- R79: one command from its words. R79 and R80 do not say whether a pseudo-command may stand as a line, nor how its
byte sequence m or its count k is written there; every line that begins with one is an error here (DESIGN CHOICE, log
entry 11). The pseudo-commands themselves are the functions `pushes`, `absorbs`, `readDigest` and `hashCommands`. -/
def asmWords : List (List Char) → AsmLine
  | [] => .blank
  | [m] =>
    if m = "INIT".toList then .command .init
    else if m = "PAD".toList then .command .pad
    else if m = "COMPRESS".toList then .command .compress
    else if m = "FINALIZE".toList then .command .finalize
    else .error
  | [m, x] =>
    if m = "PUSH".toList then
      match byteValue x with | some b => .command (.push b) | none => .error
    else if m = "RDREG".toList then
      match regNumberOf x with | some r => .command (.rdreg r) | none => .error
    else .error
  | _ => .error

/-- R79: one line of assembly. -/
def asmLine (cs : List Char) : AsmLine := asmWords (lexLine .between [] cs)

end Sys2Proof.Machine
end

