-- ==== Sys2Proof/Machine/Hash.lean ====
section
/-! DEFINITION. The whole hash as a pure function of the message (spec/43_driver_serializer.md R205), with the
padding in closed form (spec/41_padder.md R102), apart from the machine: what the commands must compute. -/

namespace Sys2Proof.Machine

/-- R102: `z = (55 - n) mod 64`, the number of zero bytes. -/
def zeroCount (n : Nat) : Nat := ((55 - (n : Int)) % 64).toNat

/-- R13: `BE64(v)`, eight bytes. -/
def be64Bytes (v : Dword) : List Byte := (List.range 8).map (be64 v)

/-- R102: `Padded(m) = m ++ [0x80] ++ bytes(z, 0x00) ++ BE64(8n)`. -/
def padded (m : List Byte) : List Byte :=
  m ++ [0x80] ++ List.replicate (zeroCount m.length) 0x00 ++ be64Bytes (BitVec.ofNat 64 (8 * m.length))

/-- R205: `P[64i .. 64i+63]`. Every position is inside P when i < |P| / 64. -/
def blockOf (p : List Byte) (i : Nat) : Block := Vector.ofFn fun j => p.getD (64 * i + j.val) 0

/-- R205: H after the first n blocks of P. -/
def chainAfter (p : List Byte) : Nat → Chain
  | 0 => iv
  | n + 1 => compress (chainAfter p n) (blockOf p n)

/-- R205: `hash(m)`, the document's API. -/
def hashMessage (m : List Byte) : Digest := ser (chainAfter (padded m) ((padded m).length / 64))

/-- R206: one hexadecimal digit of the rendering, from `0123456789abcdef`. -/
def hexDigit (n : Nat) : Char := ("0123456789abcdef".toList).getD n '0'

/-- R206: the rendering of a digest, each byte as two digits, the most significant nibble first. It is the notation
of spec/95_test_vectors.md, not a hardware function. -/
def renderHex (d : Digest) : List Char :=
  d.toList.flatMap fun b => [hexDigit (b.toNat / 16), hexDigit (b.toNat % 16)]

end Sys2Proof.Machine
end

