-- ==== Sys2Proof/Machine/Platform.lean ====
section
/-! DEFINITION. A platform of N_INST instances (spec/00_scope.md R7; spec/60_exceptions.md R244; spec/20_memory.md R63,
R64). Instances share only the ROMs, which are constants, so the platform is a row of separate states. That a
platform names the host of each instance by a number is a DESIGN CHOICE (log entry 10). -/

namespace Sys2Proof.Machine

/-- One instance and the one host that drives it (R64). -/
structure Slot where
  host : Nat
  chip : State
deriving DecidableEq, Repr

/-- R7, R244: a platform of N_INST = n + 1 instances, so at least one, by index. -/
abbrev Platform (n : Nat) := Vector Slot (n + 1)

/-- R244: "Instances start independently: each leaves reset in IDLE." One entry (host, MSG_CAP) per instance. -/
def Platform.reset {n : Nat} (insts : Vector (Nat × Config) (n + 1)) : Platform n :=
  insts.map fun x => ⟨x.1, State.resetWith x.2⟩

/-- The platform with the state of instance k replaced. -/
def Platform.setChip {n : Nat} (p : Platform n) (k : Fin (n + 1)) (s : State) : Platform n :=
  p.set k ⟨p[k].host, s⟩

/-- The state with one more event at the end of its port. -/
def State.enqueue (s : State) (e : HostEvent) : State := { s with port := s.port ++ [e] }

/-- A host issues a command word to instance k. A host that is not the instance's own is refused (R64). -/
def Platform.issue {n : Nat} (p : Platform n) (host : Nat) (k : Fin (n + 1)) (w : Word) :
    Host.Outcome (Platform n) Fault Refusal :=
  if p[k].host = host then .next (p.setChip k (p[k].chip.enqueue (.command w))) else .refused .secondHost

/-- R250: the platform drives the reset input of instance k. -/
def Platform.driveReset {n : Nat} (p : Platform n) (k : Fin (n + 1)) : Platform n :=
  p.setChip k (p[k].chip.enqueue .reset)

/-- Instance k takes one step. The order between instances is not constrained (R63): k is the caller's choice. -/
def Platform.stepAt {n : Nat} (p : Platform n) (k : Fin (n + 1)) : Host.Outcome (Platform n) Fault Refusal :=
  match step p[k].chip with
  | .next t => .next (p.setChip k t)
  | .fault f => .fault f
  | .refused r => .refused r

end Sys2Proof.Machine
end

