-- ==== Sys2Proof/Safety.lean ====
section
/-! DEFINITION. What a safe state and a run are: the invariant of spec/10_state.md R39 with the rules on which values
exist, the reachable states, and a run of several steps. -/

namespace Sys2Proof.Machine

/-- The invariant of one instance. The fields that name an item of R39 are that item; the others say which values exist (R23, R29, R35),
what DIGEST holds (spec/43_driver_serializer.md R192), and that a flag that is set was raised (R226, R235). -/
structure State.Inv (s : State) : Prop where
  /-- R39 item 1, first half. -/
  lcntMultiple : s.lcnt.toNat % 8 = 0
  /-- R39 item 1, second half. -/
  lenBound : s.len ≤ s.capEff
  /-- R39 item 2: PHASE in {0, 1, 2, 3}. -/
  notPadding : s.phase ≠ .padding
  /-- R39 item 3. -/
  countersZero : s.phase = .idle ∨ s.phase = .init → s.blk = 0 ∧ s.nblk = 0
  /-- R39 item 4. -/
  absorbing : s.phase = .absorbing → s.blk.toNat < s.nblk.toNat ∧ s.nblk.toNat = blockCount s.len
  /-- R39 item 5. -/
  finalized : s.phase = .finalized → s.blk = s.nblk ∧ 1 ≤ s.nblk.toNat
  /-- The count PAD framed stays until the next INIT (R106). -/
  finalizedCount : s.phase = .finalized → s.nblk.toNat = blockCount s.len
  /-- R39 item 6. -/
  digestPhase : s.dvalid = true → s.phase = .finalized
  /-- R39 item 7. -/
  idleEmpty : s.phase = .idle → s.lcnt = 0 ∧ s.dvalid = false
  /-- R23: H holds no value exactly while PHASE = IDLE. -/
  chainPresent : s.h = none ↔ s.phase = .idle
  /-- R29: exactly the positions 0 .. LEN - 1 hold message bytes. -/
  messageCells : s.msg.map Prod.fst = List.range s.len
  /-- R35: DIGEST holds no value exactly while DVALID = 0. -/
  digestPresent : s.digest = none ↔ s.dvalid = false
  /-- R192: once DVALID = 1, DIGEST equals Ser(H). -/
  digestIsSer : s.dvalid = true → s.digest = s.h.map ser
  /-- R226, R235: a flag is set only for an exception that the log records. -/
  flagsLogged : ∀ e : Exc, s.flag e = true → e ∈ s.faultLog

/-- The states of an instance that its reset, the events on its port and its steps lead to. -/
inductive Reachable : State → Prop where
  | reset (c : Config) : Reachable (State.resetWith c)
  | issue (s : State) (e : HostEvent) : Reachable s → Reachable (s.enqueue e)
  | step (s t : State) : Reachable s → Machine.step s = .next t → Reachable t

/-- n steps, stopping at the first fault or refusal. -/
def stepMany : Nat → State → Result
  | 0, s => .next s
  | n + 1, s =>
    match step s with
    | .next t => stepMany n t
    | .fault f => .fault f
    | .refused r => .refused r

/-- The state with the words of the given commands issued on its port, in order. -/
def State.issueAll (s : State) (is : List Instr) : State :=
  { s with port := s.port ++ is.map fun i => .command (encode i) }

/-- R235: the premise of a claim about a run without errors, from s to t: no exception was recorded. -/
abbrev noErrorBetween (s t : State) : Prop := t.faultLog = s.faultLog

/-- spec/10_state.md R36: the numbers that are "unassigned". -/
def unassignedNumber (r : Byte) : Bool :=
  (0x0F ≤ r.toNat && r.toNat ≤ 0x1F) || 0x40 ≤ r.toNat

/-- spec/60_exceptions.md R223, cases M2 to M8: the command does not fit the phase or DVALID. -/
def misusesPhase (s : State) : Instr → Bool
  | .init     => false
  | .push _   => s.phase ≠ .init
  | .pad      => s.phase ≠ .init
  | .compress => s.phase ≠ .absorbing
  | .finalize => s.phase ≠ .finalized || s.dvalid
  | .rdreg r  =>
    (r.toNat < 0x08 && s.phase = .idle) || (0x20 ≤ r.toNat && r.toNat < 0x40 && !s.dvalid)

/-- R223 case M1: the commands the lock refuses. -/
def lockRefuses : Instr → Bool
  | .init | .rdreg _ => false
  | .push _ | .pad | .compress | .finalize => true

/-- R222 to R224 in the order of R231: the exception a command must raise, written from those rules and not from the
meanings. -/
def dueException (s : State) (i : Instr) : Option Exc :=
  if (match i with | .rdreg r => unassignedNumber r | _ => false) then some .illegalCommand
  else if lockRefuses i && locked s then some .misuseError
  else if misusesPhase s i then some .misuseError
  else if (match i with | .push _ => decide (s.capEff ≤ s.len) | _ => false) then some .inputTooLarge
  else none

/-- R231 for a command word: an Illegal word first. -/
def dueExceptionOfWord (s : State) (w : Word) : Option Exc :=
  match decode w with
  | .illegal _ => some .illegalCommand
  | .command i => dueException s i

/-- Two states with the same configuration and the same hardware state (spec/10_state.md R20), whatever the model
recorded of their ports. -/
structure State.SameHardware (s t : State) : Prop where
  cfg : s.cfg = t.cfg
  phase : s.phase = t.phase
  h : s.h = t.h
  msg : s.msg = t.msg
  lcnt : s.lcnt = t.lcnt
  blk : s.blk = t.blk
  nblk : s.nblk = t.nblk
  digest : s.digest = t.digest
  dvalid : s.dvalid = t.dvalid
  eMisuse : s.eMisuse = t.eMisuse
  eTooLarge : s.eTooLarge = t.eTooLarge
  eIllegal : s.eIllegal = t.eIllegal

end Sys2Proof.Machine
end

