-- ==== Sys2Proof/Certificates/Slice0/Obligations.lean ====
section
/-! DEFINITION. The statements about SHA256_CORE for the provers, each from the numbered rules of spec/. Throughout,
`responses := s.responses ++ [⟨c, d⟩]` says that the command returns the response (c, d) of spec/30_encoding.md R78, and
`faultLog` is the log of spec/60_exceptions.md R235; that the responses are kept in a list is the model's choice (log
entry 1). -/

section

open Sys2Proof Sys2Proof.Machine

/-! ## Encoding -/

/-- Decoding the word of a command gives the command back, with every operand at every value (spec/30_encoding.md
R75, R76). -/
def Obligations.DecodeOfEncodeIsTheCommand : Prop :=
  ∀ i : Instr, decode (encode i) = .command i

/-- A command has one word: a word that decodes to a command is that command's word (R74, R75). -/
def Obligations.EncodeOfDecodeIsTheWord : Prop :=
  ∀ (w : Word) (i : Instr), decode w = .command i → encode i = w

/-- R77: exactly the words of its three clauses are Illegal, and executing one changes E_ILLEGAL and nothing else of
the hardware. The second half names the model's own records of the response and of the exception too. -/
def Obligations.IllegalWordsAreThoseOfTheThreeClauses : Prop :=
  ∀ w : Word,
    ((∃ why, decode w = .illegal why) ↔
      ((w.extractLsb 3 0).toNat = 0 ∨ 7 ≤ (w.extractLsb 3 0).toNat) ∨
      ((w.extractLsb 3 0).toNat ∈ [0x1, 0x3, 0x4, 0x5] ∧ w.extractLsb 31 4 ≠ 0) ∨
      ((w.extractLsb 3 0).toNat ∈ [0x2, 0x6] ∧ (w.extractLsb 31 16 ≠ 0 ∨ w.extractLsb 7 4 ≠ 0))) ∧
    ∀ (why : IllegalWord) (s : State), decode w = .illegal why →
      runWord w s = .next { s with
        eIllegal := true, responses := s.responses ++ [⟨1, 0⟩], faultLog := s.faultLog ++ [.illegalCommand] }

/-- R74: the six rows with their match and mask; a word selects a row exactly when it decodes to a command of that
row, and at most one row. -/
def Obligations.WordSelectsExactlyItsCommandsRow : Prop :=
  opcodeMap.map (fun row => (row.mnemonic, row.matchBits, row.maskBits)) =
    [("INIT", 0x00000001, 0xFFFFFFFF), ("PUSH", 0x00000002, 0xFFFF00FF), ("PAD", 0x00000003, 0xFFFFFFFF),
      ("COMPRESS", 0x00000004, 0xFFFFFFFF), ("FINALIZE", 0x00000005, 0xFFFFFFFF),
      ("RDREG", 0x00000006, 0xFFFF00FF)] ∧
  (∀ (w : Word) (row : OpcodeRow), row ∈ opcodeMap →
    (w &&& row.maskBits = row.matchBits ↔ ∃ i, decode w = .command i ∧ i.row = row)) ∧
  ∀ (w : Word) (r₁ r₂ : OpcodeRow), r₁ ∈ opcodeMap → r₂ ∈ opcodeMap →
    w &&& r₁.maskBits = r₁.matchBits → w &&& r₂.maskBits = r₂.matchBits → r₁ = r₂

/-- The well-formed command words (R71, R72) are the words that decode to a command. -/
def Obligations.WellFormedWordsAreTheCommands : Prop :=
  ∀ w : Word, wordWellFormed w = true ↔ ∃ i, decode w = .command i

/-- Words written out from the patterns of R75 decode to the commands they stand for. -/
def Obligations.WordsOfThePatternsDecode : Prop :=
  decode 0b00000000000000000000000000000001#32 = .command .init ∧
  decode 0b00000000000000000110000100000010#32 = .command (.push 0x61) ∧
  decode 0b00000000000000001111111100000010#32 = .command (.push 0xFF) ∧
  decode 0b00000000000000000000000000000011#32 = .command .pad ∧
  decode 0b00000000000000000000000000000100#32 = .command .compress ∧
  decode 0b00000000000000000000000000000101#32 = .command .finalize ∧
  decode 0b00000000000000000010000000000110#32 = .command (.rdreg 0x20)

/-! ## The step and reset -/

/-- When the oldest event of the port is a word that decodes to a command, the step takes the event off the port and
is `exec` of that command (spec/00_scope.md R5, spec/20_memory.md R62). A command is well formed by its type. -/
def Obligations.StepRunsTheDecodedCommand : Prop :=
  ∀ (s : State) (w : Word) (rest : List HostEvent) (i : Instr),
    s.port = .command w :: rest → decode w = .command i → step s = exec i { s with port := rest }

/-- What the step does otherwise: an Illegal word raises IllegalCommand (spec/60_exceptions.md R222), a reset event is
taken off the port and leaves the configuration, the responses and the fault log (the model's choice of what lies
outside the hardware's state: DEDUCED, log entry 7; the reset as an event of the port: DESIGN CHOICE, log entry 14; its
effect on the hardware's state is the next statement), and with no event the core holds its state (R246; DEDUCED, log
entry 3). -/
def Obligations.StepOnOtherEventsAndOnIdlePort : Prop :=
  (∀ (s : State) (w : Word) (rest : List HostEvent) (why : IllegalWord),
    s.port = .command w :: rest → decode w = .illegal why →
    step s = .next { s with
      port := rest, eIllegal := true, responses := s.responses ++ [⟨1, 0⟩],
      faultLog := s.faultLog ++ [.illegalCommand] }) ∧
  (∀ (s : State) (rest : List HostEvent), s.port = .reset :: rest →
    ∃ t, step s = .next t ∧ t.port = rest ∧ t.cfg = s.cfg ∧ t.faultLog = s.faultLog ∧ t.responses = s.responses) ∧
  ∀ s : State, s.port = [] → step s = .next s

/-- spec/70_reset_and_hazards.md R250: the reset input, taken between two commands, sets every piece of state to its
value of spec/10_state.md R40 and returns no response. What it leaves is a clause of the statement before. -/
def Obligations.ResetEventSetsTheResetValues : Prop :=
  ∀ (s : State) (rest : List HostEvent), s.port = .reset :: rest →
    ∃ t, step s = .next t ∧ t.phase = .idle ∧ t.lcnt = 0 ∧ t.blk = 0 ∧ t.nblk = 0 ∧ t.dvalid = false ∧
      t.eMisuse = false ∧ t.eTooLarge = false ∧ t.eIllegal = false ∧
      t.h = none ∧ t.digest = none ∧ (∀ p, Memory.read t.msg p = none) ∧
      t.responses = s.responses

/-- spec/10_state.md R40: the values after reset. -/
def Obligations.ResetStateHoldsTheResetValues : Prop :=
  ∀ s : State, (s = State.reset ∨ ∃ c, s = State.resetWith c) →
    s.h = none ∧ (∀ p, Memory.read s.msg p = none) ∧ s.len = 0 ∧ s.lcnt = 0 ∧ s.phase = .idle ∧ s.blk = 0 ∧
    s.nblk = 0 ∧ s.digest = none ∧ s.dvalid = false ∧ s.eMisuse = false ∧ s.eTooLarge = false ∧
    s.eIllegal = false ∧ statusWord s = 0x00000000

/-! ## What each command does -/

/-- spec/43_driver_serializer.md R181: INIT, in every state, locked or not. The literals are IV of spec/10_state.md
R24. -/
def Obligations.InitStartsAFreshComputation : Prop :=
  ∀ s : State, exec .init s = .next { s with
    h := some #v[0x6a09e667, 0xbb67ae85, 0x3c6ef372, 0xa54ff53a, 0x510e527f, 0x9b05688c, 0x1f83d9ab, 0x5be0cd19],
    lcnt := 0, msg := [], blk := 0, nblk := 0, dvalid := false, digest := none,
    eMisuse := false, eTooLarge := false, eIllegal := false, phase := .init,
    responses := s.responses ++ [⟨0, 0⟩] }

/-- spec/41_padder.md R103: PUSH, its three exceptions in their order and its effect, with LEN = LCNT >> 3 and
CAP_EFF = min(MSG_CAP, 2^61 - 1) written out. -/
def Obligations.PushAppendsTheByteOrRaises : Prop :=
  ∀ (s : State) (b : Byte),
    (locked s = true → exec (.push b) s = .next (s.raised .misuseError)) ∧
    (locked s = false → s.phase ≠ .init → exec (.push b) s = .next (s.raised .misuseError)) ∧
    (locked s = false → s.phase = .init → min s.cfg.msgCap (2 ^ 61 - 1) ≤ s.lcnt.toNat / 8 →
      exec (.push b) s = .next (s.raised .inputTooLarge)) ∧
    (locked s = false → s.phase = .init → s.lcnt.toNat / 8 < min s.cfg.msgCap (2 ^ 61 - 1) →
      exec (.push b) s = .next { s with
        msg := Memory.write s.msg (s.lcnt.toNat / 8) b, lcnt := s.lcnt + 8, responses := s.responses ++ [⟨0, 0⟩] })

/-- spec/41_padder.md R105: PAD, its exceptions and its effect. -/
def Obligations.PadFramesTheMessageOrRaises : Prop :=
  ∀ s : State,
    (locked s = true → exec .pad s = .next (s.raised .misuseError)) ∧
    (locked s = false → s.phase ≠ .init → exec .pad s = .next (s.raised .misuseError)) ∧
    (locked s = false → s.phase = .init →
      ∃ t, exec .pad s = .next t ∧ t.nblk.toNat = (s.len + 8) / 64 + 1 ∧
        t = { s with nblk := t.nblk, blk := 0, phase := .absorbing, responses := s.responses ++ [⟨0, 0⟩] })

/-- spec/42_compressor.md R160: COMPRESS, its exceptions and its effect. The invariant stands in the last clause
because H and Block(BLK) have values only in states that meet it. -/
def Obligations.CompressAbsorbsTheNextBlockOrRaises : Prop :=
  ∀ s : State,
    (locked s = true → exec .compress s = .next (s.raised .misuseError)) ∧
    (locked s = false → s.phase ≠ .absorbing → exec .compress s = .next (s.raised .misuseError)) ∧
    (s.Inv → locked s = false → s.phase = .absorbing →
      ∃ (c : Chain) (b : Block), s.h = some c ∧
        (∀ j (_ : j < 64), padByte s (64 * s.blk.toNat + j) = .ok b[j]) ∧
        exec .compress s = .next { s with
          h := some (compress c b), blk := s.blk + 1,
          phase := if s.blk.toNat + 1 = s.nblk.toNat then .finalized else .absorbing,
          responses := s.responses ++ [⟨0, 0⟩] })

/-- spec/43_driver_serializer.md R191: FINALIZE, its exceptions and its effect. The invariant stands in the last
clause because H has a value only in states that meet it. -/
def Obligations.FinalizeSerializesTheDigestOrRaises : Prop :=
  ∀ s : State,
    (locked s = true → exec .finalize s = .next (s.raised .misuseError)) ∧
    (locked s = false → s.phase ≠ .finalized → exec .finalize s = .next (s.raised .misuseError)) ∧
    (locked s = false → s.phase = .finalized → s.dvalid = true →
      exec .finalize s = .next (s.raised .misuseError)) ∧
    (s.Inv → locked s = false → s.phase = .finalized → s.dvalid = false →
      ∃ c : Chain, s.h = some c ∧
        exec .finalize s = .next { s with
          digest := some (ser c), dvalid := true, responses := s.responses ++ [⟨0, 0⟩] })

/-- spec/43_driver_serializer.md R200 and spec/10_state.md R36: RDREG of every assigned register, by number, locked
or not, and the reads that raise an exception: an unassigned number in every state, H in IDLE, DIGEST while
DVALID = 0. The invariant stands in the two clauses whose values exist only in states that meet it. -/
def Obligations.RdregReturnsTheRegisterOrRaises : Prop :=
  ∀ s : State,
    (∀ r : Byte, (0x0F ≤ r.toNat ∧ r.toNat ≤ 0x1F) ∨ 0x40 ≤ r.toNat →
      exec (.rdreg r) s = .next (s.raised .illegalCommand)) ∧
    (∀ r : Byte, r.toNat ≤ 0x07 → s.phase = .idle → exec (.rdreg r) s = .next (s.raised .misuseError)) ∧
    (∀ r : Byte, 0x20 ≤ r.toNat ∧ r.toNat ≤ 0x3F → s.dvalid = false →
      exec (.rdreg r) s = .next (s.raised .misuseError)) ∧
    (∀ (j : Nat) (_ : j < 8), s.Inv → s.phase ≠ .idle →
      ∃ hv, s.h = some hv ∧ exec (.rdreg (BitVec.ofNat 8 j)) s = .next (s.reply ⟨0, hv[j]⟩)) ∧
    exec (.rdreg 0x08) s = .next (s.reply ⟨0, statusWord s⟩) ∧
    exec (.rdreg 0x09) s = .next (s.reply ⟨0, s.lcnt.extractLsb 31 0⟩) ∧
    exec (.rdreg 0x0A) s = .next (s.reply ⟨0, s.lcnt.extractLsb 63 32⟩) ∧
    exec (.rdreg 0x0B) s = .next (s.reply ⟨0, s.blk.extractLsb 31 0⟩) ∧
    exec (.rdreg 0x0C) s = .next (s.reply ⟨0, s.blk.extractLsb 63 32⟩) ∧
    exec (.rdreg 0x0D) s = .next (s.reply ⟨0, s.nblk.extractLsb 31 0⟩) ∧
    exec (.rdreg 0x0E) s = .next (s.reply ⟨0, s.nblk.extractLsb 63 32⟩) ∧
    (∀ (k : Nat) (_ : k < 32), s.Inv → s.dvalid = true →
      ∃ d, s.digest = some d ∧
        exec (.rdreg (BitVec.ofNat 8 (0x20 + k))) s = .next (s.reply ⟨0, d[k].zeroExtend 32⟩))

/-! ## Frames -/

/-- What INIT leaves: the configuration, the port and the fault log. Everything else is written (R181). -/
def Obligations.InitFrame : Prop :=
  ∀ s t : State, exec .init s = .next t →
    t.cfg = s.cfg ∧ t.port = s.port ∧ t.faultLog = s.faultLog ∧ ∃ r, t.responses = s.responses ++ [r]

/-- What PUSH leaves (spec/41_padder.md R103; spec/60_exceptions.md R230): everything but MSG at position LEN, LCNT,
E_MISUSE and E_TOOLARGE, and the model's records of responses and exceptions. -/
def Obligations.PushFrame : Prop :=
  ∀ (s t : State) (b : Byte), exec (.push b) s = .next t →
    t.cfg = s.cfg ∧ t.phase = s.phase ∧ t.h = s.h ∧ t.blk = s.blk ∧ t.nblk = s.nblk ∧ t.digest = s.digest ∧
    t.dvalid = s.dvalid ∧ t.eIllegal = s.eIllegal ∧ t.port = s.port ∧
    ∀ p, p ≠ s.len → Memory.read t.msg p = Memory.read s.msg p

/-- What PAD leaves (R105): everything but PHASE, NBLK, BLK and E_MISUSE, and the records. -/
def Obligations.PadFrame : Prop :=
  ∀ s t : State, exec .pad s = .next t →
    t.cfg = s.cfg ∧ t.h = s.h ∧ t.lcnt = s.lcnt ∧ t.digest = s.digest ∧ t.dvalid = s.dvalid ∧
    t.eTooLarge = s.eTooLarge ∧ t.eIllegal = s.eIllegal ∧ t.port = s.port ∧
    ∀ p, Memory.read t.msg p = Memory.read s.msg p

/-- What COMPRESS leaves (R160): everything but H, BLK, PHASE and E_MISUSE, and the records. -/
def Obligations.CompressFrame : Prop :=
  ∀ s t : State, exec .compress s = .next t →
    t.cfg = s.cfg ∧ t.lcnt = s.lcnt ∧ t.nblk = s.nblk ∧ t.digest = s.digest ∧ t.dvalid = s.dvalid ∧
    t.eTooLarge = s.eTooLarge ∧ t.eIllegal = s.eIllegal ∧ t.port = s.port ∧
    ∀ p, Memory.read t.msg p = Memory.read s.msg p

/-- What FINALIZE leaves (R191): everything but DIGEST, DVALID and E_MISUSE, and the records. "FINALIZE leaves PHASE
at FINALIZED" and "H is not changed". -/
def Obligations.FinalizeFrame : Prop :=
  ∀ s t : State, exec .finalize s = .next t →
    t.cfg = s.cfg ∧ t.phase = s.phase ∧ t.h = s.h ∧ t.lcnt = s.lcnt ∧ t.blk = s.blk ∧ t.nblk = s.nblk ∧
    t.eTooLarge = s.eTooLarge ∧ t.eIllegal = s.eIllegal ∧ t.port = s.port ∧
    ∀ p, Memory.read t.msg p = Memory.read s.msg p

/-- spec/20_memory.md R59: "A successful RDREG changes no state", and one that raises an exception sets its flag and
nothing else. The records of the response and of the exception are the model's. -/
def Obligations.RdregFrame : Prop :=
  ∀ (s t : State) (r : Byte), exec (.rdreg r) s = .next t →
    (∃ d, t = { s with responses := s.responses ++ [⟨0, d⟩] }) ∨
    t = { s with
      eMisuse := true, responses := s.responses ++ [⟨2, 0⟩], faultLog := s.faultLog ++ [.misuseError] } ∨
    t = { s with
      eIllegal := true, responses := s.responses ++ [⟨1, 0⟩], faultLog := s.faultLog ++ [.illegalCommand] }

/-! ## Responses, exceptions, flags and the lock -/

/-- spec/30_encoding.md R78: every command word returns one response; RCODE is 0 to 3; RDATA is the register's value
when an RDREG succeeds and 0 in every other case. -/
def Obligations.EveryCommandReturnsOneResponse : Prop :=
  ∀ (w : Word) (s t : State), runWord w s = .next t →
    ∃ r : Response, t.responses = s.responses ++ [r] ∧ r.rcode.toNat ≤ 3 ∧
      ((∃ n reg, decode w = .command (.rdreg n) ∧ r.rcode = 0 ∧ regOfNumber n = some reg ∧
          regValue s reg = .ok r.rdata) ∨
        ((∀ n, decode w = .command (.rdreg n) → r.rcode ≠ 0) ∧ r.rdata = 0))

/-- spec/60_exceptions.md R230: a command word that answers another code than 0 changes one flag and nothing else;
the code names the flag (R220). The records of the response and of the exception are the model's. -/
def Obligations.ExceptionsArePrecise : Prop :=
  ∀ (w : Word) (s t : State) (r : Response),
    runWord w s = .next t → t.responses = s.responses ++ [r] → r.rcode ≠ 0 →
    (t = { s with
      eIllegal := true, responses := s.responses ++ [⟨1, 0⟩], faultLog := s.faultLog ++ [.illegalCommand] }) ∨
    (t = { s with
      eMisuse := true, responses := s.responses ++ [⟨2, 0⟩], faultLog := s.faultLog ++ [.misuseError] }) ∨
    (t = { s with
      eTooLarge := true, responses := s.responses ++ [⟨3, 0⟩], faultLog := s.faultLog ++ [.inputTooLarge] })

/-- spec/60_exceptions.md R222, R223, R224 in the order of R231: in a state that meets the invariant every command
word completes, and its code is the one these rules name, 0 where they name none. -/
def Obligations.CommandsReportTheFirstExceptionDue : Prop :=
  ∀ (s : State) (w : Word), s.Inv →
    ∃ t r, runWord w s = .next t ∧ t.responses = s.responses ++ [r] ∧
      match dueExceptionOfWord s w with
      | none => r.rcode = 0
      | some .illegalCommand => r.rcode = 1
      | some .misuseError => r.rcode = 2
      | some .inputTooLarge => r.rcode = 3

/-- spec/60_exceptions.md R233: when the core is locked, what the lock refuses, and what runs as if it were not
there. -/
def Obligations.LockRefusesAllButInitAndRdreg : Prop :=
  ∀ s : State,
    (locked s = true ↔ s.eMisuse = true ∨ s.eTooLarge = true ∨ s.eIllegal = true) ∧
    (locked s = true → ∀ i, (∃ b, i = .push b) ∨ i = .pad ∨ i = .compress ∨ i = .finalize →
      exec i s = .next { s with
        eMisuse := true, responses := s.responses ++ [⟨2, 0⟩], faultLog := s.faultLog ++ [.misuseError] }) ∧
    (∃ t, exec .init s = .next t ∧ locked t = false) ∧
    (locked s = true → ∀ (r : Byte) (t : State), r ≠ 0x08 → exec (.rdreg r) s = .next t →
      ∃ u, exec (.rdreg r) { s with eMisuse := false, eTooLarge := false, eIllegal := false } = .next u ∧
        u.responses = t.responses)

/-- spec/10_state.md R38: no command but INIT clears a flag, none sets one on success, and raising an exception sets
its flag. -/
def Obligations.FlagsAreStickyAndSetByExceptionsOnly : Prop :=
  ∀ (w : Word) (s t : State) (r : Response), runWord w s = .next t → t.responses = s.responses ++ [r] →
    (decode w ≠ .command .init → ∀ e, s.flag e = true → t.flag e = true) ∧
    (decode w = .command .init → ∀ e, t.flag e = false) ∧
    (r.rcode = 0 → ∀ e, t.flag e = true → s.flag e = true) ∧
    (r.rcode = 1 → t.eIllegal = true) ∧ (r.rcode = 2 → t.eMisuse = true) ∧ (r.rcode = 3 → t.eTooLarge = true)

/-- spec/60_exceptions.md R235: the fault log records the exception a command raised, if it raised one, after those
before it; no command clears it, INIT included. -/
def Obligations.FaultLogRecordsEveryException : Prop :=
  ∀ (w : Word) (s t : State) (r : Response), runWord w s = .next t → t.responses = s.responses ++ [r] →
    (r.rcode = 0 → t.faultLog = s.faultLog) ∧
    (r.rcode = 1 → t.faultLog = s.faultLog ++ [.illegalCommand]) ∧
    (r.rcode = 2 → t.faultLog = s.faultLog ++ [.misuseError]) ∧
    (r.rcode = 3 → t.faultLog = s.faultLog ++ [.inputTooLarge])

/-- spec/10_state.md R37: the fields of STATUS. -/
def Obligations.StatusHoldsItsFields : Prop :=
  ∀ s : State,
    (statusWord s).extractLsb 2 0 = (match s.phase with
      | .idle => 0#3 | .init => 1#3 | .absorbing => 2#3 | .finalized => 3#3 | .padding => 4#3) ∧
    (statusWord s).getLsbD 3 = s.dvalid ∧
    (statusWord s).getLsbD 4 = s.eMisuse ∧
    (statusWord s).getLsbD 5 = s.eTooLarge ∧
    (statusWord s).getLsbD 6 = s.eIllegal ∧
    (∀ i, 7 ≤ i → (statusWord s).getLsbD i = false) ∧
    (s.Inv → ((statusWord s).extractLsb 2 0).toNat ≤ 3)

/-! ## Rules of the whole machine -/

/-- spec/43_driver_serializer.md R180: the transitions, PHASE and DVALID after every command in every phase that its
table gives, and MisuseError for what the lock refuses. -/
def Obligations.DriverTransitions : Prop :=
  ∀ (s t : State) (i : Instr), s.Inv → exec i s = .next t →
    if locked s = true ∧ i ≠ .init ∧ (∀ r, i ≠ .rdreg r) then t = s.raised .misuseError
    else match i, s.phase with
    | .init, _ => t.phase = .init ∧ t.dvalid = false
    | .rdreg _, _ => t.phase = s.phase ∧ t.dvalid = s.dvalid
    | .push b, .init =>
      t.phase = .init ∧ t.dvalid = false ∧
        (t = s.raised .inputTooLarge ∨ Memory.read t.msg s.len = some b)
    | .pad, .init => t.phase = .absorbing ∧ t.dvalid = false
    | .compress, .absorbing =>
      t.dvalid = false ∧
        t.phase = if s.blk.toNat + 1 < s.nblk.toNat then .absorbing else .finalized
    | .finalize, .finalized =>
      if s.dvalid = false then t.phase = .finalized ∧ t.dvalid = true else t = s.raised .misuseError
    | _, _ => t = s.raised .misuseError

/-- spec/10_state.md R22: no command but INIT and COMPRESS writes H; an Illegal word writes nothing of it either. -/
def Obligations.OnlyInitAndCompressWriteTheChain : Prop :=
  ∀ (w : Word) (s t : State), runWord w s = .next t →
    decode w ≠ .command .init → decode w ≠ .command .compress → t.h = s.h

/-- spec/41_padder.md R106: outside INIT no command but INIT changes MSG or LCNT, or leads back to the phase in which
they change. -/
def Obligations.MessageIsFixedAfterPad : Prop :=
  ∀ (w : Word) (s t : State), runWord w s = .next t → s.phase ≠ .init → decode w ≠ .command .init →
    t.msg = s.msg ∧ t.lcnt = s.lcnt ∧ t.phase ≠ .init

/-- spec/10_state.md R28, spec/41_padder.md R104: an accepted PUSH makes the message one byte longer and LCNT never
wraps. -/
def Obligations.AcceptedPushCountsExactly : Prop :=
  ∀ (s : State) (b : Byte), s.Inv → locked s = false → s.phase = .init → s.len < s.capEff →
    ∃ t, exec (.push b) s = .next t ∧ t.lcnt.toNat = s.lcnt.toNat + 8 ∧ t.lcnt.toNat ≤ 2 ^ 64 - 8 ∧
      t.len = s.len + 1 ∧ t.msg.map Prod.snd = s.msg.map Prod.snd ++ [b]

/-- Every step keeps the message buffer's canonical form, in every state. That the buffer is a list of cells with
strictly rising positions is the model's own representation (DEDUCED, log entry 5), not a rule of the spec; R29 and R51
of the spec say only which positions hold bytes and which one PUSH writes. -/
def Obligations.MessageBufferStaysCanonical : Prop :=
  ∀ s t : State, Memory.wf s.msg → step s = .next t → Memory.wf t.msg

/-- The invariant of R39, with the rules on which values exist, holds after reset. -/
def Obligations.ResetMeetsTheInvariant : Prop :=
  State.reset.Inv ∧ ∀ c : Config, (State.resetWith c).Inv

/-- Every step keeps the invariant, from every state that meets it. -/
def Obligations.StepKeepsTheInvariant : Prop :=
  ∀ s t : State, s.Inv → step s = .next t → t.Inv

/-- spec/60_exceptions.md R234 ("no stuck state"), spec/70_reset_and_hazards.md R271 ("Every command terminates"):
from a state that meets the invariant the step always answers a next state. That the step with no event on the port
is one is the model's reading of R246 (DEDUCED, log entry 3). -/
def Obligations.InvariantStatesNeverStop : Prop :=
  ∀ s : State, s.Inv → ∃ t, step s = .next t

/-- spec/10_state.md R39: the seven items, in every reachable state of every instance, with LEN = LCNT >> 3 and
CAP_EFF = min(MSG_CAP, 2^61 - 1) written out. -/
def Obligations.ReachableStatesMeetTheSevenItems : Prop :=
  ∀ s : State, Reachable s →
    (s.lcnt.toNat % 8 = 0 ∧ s.lcnt.toNat / 8 ≤ min s.cfg.msgCap (2 ^ 61 - 1)) ∧
    (s.phase = .idle ∨ s.phase = .init ∨ s.phase = .absorbing ∨ s.phase = .finalized) ∧
    (s.phase = .idle ∨ s.phase = .init → s.blk = 0 ∧ s.nblk = 0) ∧
    (s.phase = .absorbing → s.blk.toNat < s.nblk.toNat ∧ s.nblk.toNat = (s.lcnt.toNat / 8 + 8) / 64 + 1) ∧
    (s.phase = .finalized → s.blk = s.nblk ∧ 1 ≤ s.nblk.toNat) ∧
    (s.dvalid = true → s.phase = .finalized) ∧
    (s.phase = .idle → s.lcnt = 0 ∧ s.dvalid = false)

/-- spec/43_driver_serializer.md R192: once DVALID = 1, no command but INIT changes DIGEST, DVALID or H, and DIGEST
equals Ser(H). -/
def Obligations.DigestIsKeptUntilInit : Prop :=
  ∀ (w : Word) (s t : State), s.Inv → s.dvalid = true → runWord w s = .next t → decode w ≠ .command .init →
    t.digest = s.digest ∧ t.dvalid = true ∧ t.h = s.h ∧ ∃ c, t.h = some c ∧ t.digest = some (ser c)

/-- spec/43_driver_serializer.md R182, R207: what the model recorded and what an earlier computation left has no
influence. INIT leads from any two instances of one configuration to the same hardware state, and commands keep two
equal hardware states equal, with the same response. -/
def Obligations.InitForgetsAndCommandsAreDeterministic : Prop :=
  (∀ s u : State, s.cfg = u.cfg →
    ∃ s' u', exec .init s = .next s' ∧ exec .init u = .next u' ∧ s'.SameHardware u') ∧
  ∀ (w : Word) (s t u : State), s.SameHardware u → runWord w s = .next t →
    ∃ v r, runWord w u = .next v ∧ t.SameHardware v ∧
      t.responses = s.responses ++ [r] ∧ v.responses = u.responses ++ [r]

/-! ## The padder -/

/-- spec/41_padder.md R110: every byte of the padded message, placed by position, while the message is framed. P is
64 x NBLK. -/
def Obligations.FramerPlacesEveryByte : Prop :=
  ∀ (s : State) (p : Nat), s.Inv → s.phase = .absorbing ∨ s.phase = .finalized → p < 64 * s.nblk.toNat →
    s.len < 64 * s.nblk.toNat - 8 ∧
    (p < s.len → ∃ b, Memory.read s.msg p = some b ∧ padByte s p = .ok b) ∧
    (p = s.len → padByte s p = .ok 0x80) ∧
    (s.len < p → p < 64 * s.nblk.toNat - 8 → padByte s p = .ok 0x00) ∧
    (∀ k, p = 64 * s.nblk.toNat - 8 + k → padByte s p = .ok (s.lcnt.extractLsb' (56 - 8 * k) 8))

/-- spec/41_padder.md R114: outside its range the framer answers no value. -/
def Obligations.FramerStopsOutsideItsRange : Prop :=
  ∀ (s : State) (n : Nat),
    (64 * s.nblk.toNat ≤ n → padByte s n = .error .framerOutOfRange) ∧
    (s.nblk.toNat ≤ n → blockAt s n = .error .framerOutOfRange) ∧
    (s.phase ≠ .absorbing → s.phase ≠ .finalized → padByte s n = .error .framerOutOfRange)

/-- spec/41_padder.md R102, R110, R112: the framer's bytes are those of the padding in closed form. -/
def Obligations.FramerIsThePaddingInClosedForm : Prop :=
  ∀ s : State, s.Inv → s.phase = .absorbing ∨ s.phase = .finalized →
    (padded (s.msg.map Prod.snd)).length = 64 * s.nblk.toNat ∧
    (∀ p < 64 * s.nblk.toNat, ∃ b, (padded (s.msg.map Prod.snd))[p]? = some b ∧ padByte s p = .ok b) ∧
    ∀ i < s.nblk.toNat, blockAt s i = .ok (blockOf (padded (s.msg.map Prod.snd)) i)

/-- spec/41_padder.md R113: the postconditions of the padding, for every message within the limit. -/
def Obligations.PaddingPostconditions : Prop :=
  ∀ m : List Byte, m.length ≤ 2 ^ 61 - 1 →
    8 * (padded m).length % 512 = 0 ∧
    8 * (padded m).length ≥ 8 * m.length + 72 ∧
    (padded m).length ≤ m.length + 72 ∧
    (m.length % 64 = 55 → (padded m).length = m.length + 9) ∧
    (m.length % 64 = 56 → (padded m).length = m.length + 72) ∧
    (padded m)[m.length]? = some 0x80 ∧
    (∀ k < 8, (padded m)[(padded m).length - 8 + k]? =
      some (BitVec.ofNat 8 (8 * m.length / 2 ^ (56 - 8 * k)))) ∧
    (padded m).take m.length = m

/-- spec/41_padder.md R107: the block count equals the document's formula, and the padded message has that many
blocks. The ceiling of a / 512 is (a + 511) / 512. -/
def Obligations.BlockCountMatchesTheDocument : Prop :=
  ∀ m : List Byte,
    blockCount m.length = (8 * m.length + 65 + 511) / 512 ∧ (padded m).length = 64 * blockCount m.length

/-! ## The compressor -/

/-- spec/42_compressor.md R130, R131: the bits of a rotation and of a shift. -/
def Obligations.RotationAndShiftBits : Prop :=
  ∀ (x : Word) (n i : Nat), n ≤ 31 → i ≤ 31 →
    (rotr x n).getLsbD i = x.getLsbD ((i + n) % 32) ∧
    (x >>> n).getLsbD i = if i + n ≤ 31 then x.getLsbD (i + n) else false

/-- R133 to R136: the four functions in the rotations of the rules, each rotation the library's own. -/
def Obligations.SigmaFunctionsRotate : Prop :=
  ∀ x : Word,
    sig0 x = x.rotateRight 7 ^^^ x.rotateRight 18 ^^^ x >>> 3 ∧
    sig1 x = x.rotateRight 17 ^^^ x.rotateRight 19 ^^^ x >>> 10 ∧
    ep0 x = x.rotateRight 2 ^^^ x.rotateRight 13 ^^^ x.rotateRight 22 ∧
    ep1 x = x.rotateRight 6 ^^^ x.rotateRight 11 ^^^ x.rotateRight 25

/-- R137, R138: choose and majority, bit by bit. -/
def Obligations.ChooseAndMajorityBits : Prop :=
  ∀ (x y z : Word) (i : Nat), i < 32 →
    (ch x y z).getLsbD i = (if x.getLsbD i then y.getLsbD i else z.getLsbD i) ∧
    ((maj x y z).getLsbD i = true ↔
      2 ≤ (x.getLsbD i).toNat + (y.getLsbD i).toNat + (z.getLsbD i).toNat)

/-- R145: the message words are the block's bytes, big-endian. -/
def Obligations.ScheduleLoadsBigEndianWords : Prop :=
  ∀ (b : Block) (t : Nat) (_ : t < 16),
    (sched b)[t].toNat =
      b[4 * t].toNat * 2 ^ 24 + b[4 * t + 1].toNat * 2 ^ 16 + b[4 * t + 2].toNat * 2 ^ 8 + b[4 * t + 3].toNat

/-- R146: the recurrence of the schedule. -/
def Obligations.ScheduleFollowsTheRecurrence : Prop :=
  ∀ (b : Block) (t : Nat) (_ : 16 ≤ t) (_ : t < 64),
    (sched b)[t] = sig1 (sched b)[t - 2] + (sched b)[t - 7] + sig0 (sched b)[t - 15] + (sched b)[t - 16]

/-- R150, R152 to R155: compression is 64 rounds from H, one per t in order, and the sum with H. -/
def Obligations.CompressIsSixtyFourRoundsAndTheSum : Prop :=
  ∀ (hv : Chain) (b : Block), ∃ v : Nat → Working,
    v 0 = ⟨hv[0], hv[1], hv[2], hv[3], hv[4], hv[5], hv[6], hv[7]⟩ ∧
    (∀ (t : Nat) (ht : t < 64), ∃ t1 t2 : Word,
      t1 = (v t).h + ep1 (v t).e + ch (v t).e (v t).f (v t).g + kRom ⟨t, ht⟩ + (sched b)[t] ∧
      t2 = ep0 (v t).a + maj (v t).a (v t).b (v t).c ∧
      v (t + 1) = ⟨t1 + t2, (v t).a, (v t).b, (v t).c, (v t).d + t1, (v t).e, (v t).f, (v t).g⟩) ∧
    compress hv b =
      #v[hv[0] + (v 64).a, hv[1] + (v 64).b, hv[2] + (v 64).c, hv[3] + (v 64).d,
        hv[4] + (v 64).e, hv[5] + (v 64).f, hv[6] + (v 64).g, hv[7] + (v 64).h]

/-- R161: the micro-step view gives the same H. -/
def Obligations.MicroStepsGiveCompress : Prop :=
  ∀ (c : Chain) (b : Block), microCompress c b = compress c b

/-- R148: an expander that keeps 16 words gives the same H, and gives round t the W[t] of R146. -/
def Obligations.SixteenWordExpanderGivesCompress : Prop :=
  ∀ (c : Chain) (b : Block),
    windowCompress c b = compress c b ∧
    ∀ (t : Nat) (_ : t < 64),
      (stepTimes WindowEngine.round t (WindowEngine.load c b)).window[0] = (sched b)[t]

/-! ## The serializer and the whole hash -/

/-- spec/43_driver_serializer.md R190, spec/20_memory.md R54: each digest byte, and four of them, most significant
first, as their word. -/
def Obligations.SerializerIsBigEndian : Prop :=
  ∀ (hv : Chain) (j : Nat) (_ : j < 8),
    (∀ (k : Nat) (_ : k < 4), (ser hv)[4 * j + k] = hv[j].extractLsb' (24 - 8 * k) 8) ∧
    hv[j] = ((ser hv)[4 * j] ++ (ser hv)[4 * j + 1] ++ (ser hv)[4 * j + 2] ++ (ser hv)[4 * j + 3] : BitVec 32)

/-- spec/43_driver_serializer.md R205: the commands of HASH m, issued to any instance whose buffer can hold m, give
hash(m) in DIGEST and in the low bytes of the last 32 responses, and raise nothing. -/
def Obligations.HashCommandsComputeTheHash : Prop :=
  ∀ (s : State) (m : List Byte), s.port = [] → m.length ≤ s.capEff →
    ∃ t, stepMany (hashCommands m).length (s.issueAll (hashCommands m)) = .next t ∧
      t.dvalid = true ∧ t.digest = some (hashMessage m) ∧ noErrorBetween s t ∧ t.port = [] ∧
      t.responses = s.responses ++ List.replicate (m.length + blockCount m.length + 3) ⟨0, 0⟩ ++
        (hashMessage m).toList.map fun b => ⟨0, b.zeroExtend 32⟩

/-- R205: for a message too long for the buffer, PUSH number CAP_EFF + 1 raises InputTooLarge, every later command
raises MisuseError, and there is no digest. -/
def Obligations.HashOfATooLongMessageGivesNoDigest : Prop :=
  ∀ (s : State) (m : List Byte), s.port = [] → s.capEff < m.length →
    ∃ t, stepMany (hashCommands m).length (s.issueAll (hashCommands m)) = .next t ∧
      t.dvalid = false ∧ t.digest = none ∧
      t.responses = s.responses ++ List.replicate (s.capEff + 1) ⟨0, 0⟩ ++ [⟨3, 0⟩] ++
        List.replicate ((hashCommands m).length - (s.capEff + 2)) ⟨2, 0⟩

/-! ## The platform -/

/-- spec/20_memory.md R63, spec/60_exceptions.md R244: a step of instance k changes no other instance, and what it
does to k is the step of k alone. -/
def Obligations.InstancesAreIsolated : Prop :=
  ∀ (n : Nat) (p q : Platform n) (k : Fin (n + 1)), p.stepAt k = .next q →
    (∀ j, j ≠ k → q[j] = p[j]) ∧
    ∃ t, step p[k].chip = .next t ∧ q[k] = ⟨p[k].host, t⟩

/-- spec/20_memory.md R63: the order of steps of different instances is unobservable. -/
def Obligations.StepsOfDifferentInstancesCommute : Prop :=
  ∀ (n : Nat) (p q r : Platform n) (j k : Fin (n + 1)), j ≠ k → p.stepAt j = .next q → q.stepAt k = .next r →
    ∃ q', p.stepAt k = .next q' ∧ q'.stepAt j = .next r

/-- spec/20_memory.md R64: a second host on an instance is refused. That the instance's own host is served by placing
its word at the end of the port is the model's choice (log entry 1), and so is that hosts are named by numbers (DESIGN
CHOICE, log entry 10). -/
def Obligations.SecondHostIsRefused : Prop :=
  ∀ (n : Nat) (p : Platform n) (k : Fin (n + 1)) (host : Nat) (w : Word),
    (host ≠ p[k].host → p.issue host k w = .refused .secondHost) ∧
    (host = p[k].host → ∃ q, p.issue host k w = .next q ∧
      q[k] = ⟨p[k].host, { p[k].chip with port := p[k].chip.port ++ [.command w] }⟩ ∧ ∀ j, j ≠ k → q[j] = p[j])

/-! ## The round constants -/

/-- spec/42_compressor.md R140: the 64 round constants, row by row as the rule prints them. The spec marks them as
general knowledge (PRESUMED by the spec, log entry 9). -/
def Obligations.RoundConstantsAreThePrintedTable : Prop :=
  (kRom 0, kRom 16, kRom 32, kRom 48) = (0x428a2f98, 0xe49b69c1, 0x27b70a85, 0x19a4c116) ∧
  (kRom 1, kRom 17, kRom 33, kRom 49) = (0x71374491, 0xefbe4786, 0x2e1b2138, 0x1e376c08) ∧
  (kRom 2, kRom 18, kRom 34, kRom 50) = (0xb5c0fbcf, 0x0fc19dc6, 0x4d2c6dfc, 0x2748774c) ∧
  (kRom 3, kRom 19, kRom 35, kRom 51) = (0xe9b5dba5, 0x240ca1cc, 0x53380d13, 0x34b0bcb5) ∧
  (kRom 4, kRom 20, kRom 36, kRom 52) = (0x3956c25b, 0x2de92c6f, 0x650a7354, 0x391c0cb3) ∧
  (kRom 5, kRom 21, kRom 37, kRom 53) = (0x59f111f1, 0x4a7484aa, 0x766a0abb, 0x4ed8aa4a) ∧
  (kRom 6, kRom 22, kRom 38, kRom 54) = (0x923f82a4, 0x5cb0a9dc, 0x81c2c92e, 0x5b9cca4f) ∧
  (kRom 7, kRom 23, kRom 39, kRom 55) = (0xab1c5ed5, 0x76f988da, 0x92722c85, 0x682e6ff3) ∧
  (kRom 8, kRom 24, kRom 40, kRom 56) = (0xd807aa98, 0x983e5152, 0xa2bfe8a1, 0x748f82ee) ∧
  (kRom 9, kRom 25, kRom 41, kRom 57) = (0x12835b01, 0xa831c66d, 0xa81a664b, 0x78a5636f) ∧
  (kRom 10, kRom 26, kRom 42, kRom 58) = (0x243185be, 0xb00327c8, 0xc24b8b70, 0x84c87814) ∧
  (kRom 11, kRom 27, kRom 43, kRom 59) = (0x550c7dc3, 0xbf597fc7, 0xc76c51a3, 0x8cc70208) ∧
  (kRom 12, kRom 28, kRom 44, kRom 60) = (0x72be5d74, 0xc6e00bf3, 0xd192e819, 0x90befffa) ∧
  (kRom 13, kRom 29, kRom 45, kRom 61) = (0x80deb1fe, 0xd5a79147, 0xd6990624, 0xa4506ceb) ∧
  (kRom 14, kRom 30, kRom 46, kRom 62) = (0x9bdc06a7, 0x06ca6351, 0xf40e3585, 0xbef9a3f7) ∧
  (kRom 15, kRom 31, kRom 47, kRom 63) = (0xc19bf174, 0x14292967, 0x106aa070, 0xc67178f2)

end
end

