-- ==== Sys2Proof/Laws/Compressor.lean ====
section
/-! SUPPORT. The schedule, word by word, and the round loop, one round at a time. -/

namespace Sys2Proof.Machine

/-- A word of the schedule is the same however far the schedule has been expanded. -/
theorem expand_getElem_succ (b : Block) (k t : Nat) (h : t < 16 + k) :
    (expand b (k + 1))[t]'(by omega) = (expand b k)[t] := by
  simp [expand, h]

theorem expand_getElem_add (b : Block) (k d t : Nat) (h : t < 16 + k) :
    (expand b (k + d))[t]'(by omega) = (expand b k)[t] := by
  induction d with
  | zero => rfl
  | succ d ih =>
    have := expand_getElem_succ b (k + d) t (by omega)
    exact this.trans ih

/-- The word that one more expansion adds. -/
theorem expand_getElem_last (b : Block) (k : Nat) :
    (expand b (k + 1))[16 + k]'(by omega) = nextWord (expand b k) := by
  simp [expand]

theorem loadWords_getElem (b : Block) (t : Nat) (h : t < 16) :
    (loadWords b)[t] = wordOfBytes b[4 * t] b[4 * t + 1] b[4 * t + 2] b[4 * t + 3] := by
  simp [loadWords]

theorem runRounds_succ (w : Vector Word 64) (v : Working) (t : Nat) (h : t + 1 ≤ 64) :
    runRounds w v (t + 1) h = roundStep (runRounds w v t (Nat.le_of_succ_le h)) (kRom ⟨t, h⟩) w[t] := rfl

theorem stepTimes_succ {α : Type} (f : α → α) (n : Nat) (x : α) :
    stepTimes f (n + 1) x = f (stepTimes f n x) := rfl

end Sys2Proof.Machine
end

