-- ==== Sys2Proof/Laws/State.lean ====
section
/-! SUPPORT. One lemma per field per named update of State, so that no later proof unfolds a record update. -/

namespace Sys2Proof.Machine

variable (s : State)

/-! `State.reply` -/

@[simp] theorem State.reply_cfg (r : Response) : (s.reply r).cfg = s.cfg := rfl
@[simp] theorem State.reply_phase (r : Response) : (s.reply r).phase = s.phase := rfl
@[simp] theorem State.reply_h (r : Response) : (s.reply r).h = s.h := rfl
@[simp] theorem State.reply_msg (r : Response) : (s.reply r).msg = s.msg := rfl
@[simp] theorem State.reply_lcnt (r : Response) : (s.reply r).lcnt = s.lcnt := rfl
@[simp] theorem State.reply_blk (r : Response) : (s.reply r).blk = s.blk := rfl
@[simp] theorem State.reply_nblk (r : Response) : (s.reply r).nblk = s.nblk := rfl
@[simp] theorem State.reply_digest (r : Response) : (s.reply r).digest = s.digest := rfl
@[simp] theorem State.reply_dvalid (r : Response) : (s.reply r).dvalid = s.dvalid := rfl
@[simp] theorem State.reply_eMisuse (r : Response) : (s.reply r).eMisuse = s.eMisuse := rfl
@[simp] theorem State.reply_eTooLarge (r : Response) : (s.reply r).eTooLarge = s.eTooLarge := rfl
@[simp] theorem State.reply_eIllegal (r : Response) : (s.reply r).eIllegal = s.eIllegal := rfl
@[simp] theorem State.reply_port (r : Response) : (s.reply r).port = s.port := rfl
@[simp] theorem State.reply_responses (r : Response) : (s.reply r).responses = s.responses ++ [r] := rfl
@[simp] theorem State.reply_faultLog (r : Response) : (s.reply r).faultLog = s.faultLog := rfl

/-! `State.logExc` -/

@[simp] theorem State.logExc_cfg (e : Exc) : (s.logExc e).cfg = s.cfg := rfl
@[simp] theorem State.logExc_phase (e : Exc) : (s.logExc e).phase = s.phase := rfl
@[simp] theorem State.logExc_h (e : Exc) : (s.logExc e).h = s.h := rfl
@[simp] theorem State.logExc_msg (e : Exc) : (s.logExc e).msg = s.msg := rfl
@[simp] theorem State.logExc_lcnt (e : Exc) : (s.logExc e).lcnt = s.lcnt := rfl
@[simp] theorem State.logExc_blk (e : Exc) : (s.logExc e).blk = s.blk := rfl
@[simp] theorem State.logExc_nblk (e : Exc) : (s.logExc e).nblk = s.nblk := rfl
@[simp] theorem State.logExc_digest (e : Exc) : (s.logExc e).digest = s.digest := rfl
@[simp] theorem State.logExc_dvalid (e : Exc) : (s.logExc e).dvalid = s.dvalid := rfl
@[simp] theorem State.logExc_eMisuse (e : Exc) : (s.logExc e).eMisuse = s.eMisuse := rfl
@[simp] theorem State.logExc_eTooLarge (e : Exc) : (s.logExc e).eTooLarge = s.eTooLarge := rfl
@[simp] theorem State.logExc_eIllegal (e : Exc) : (s.logExc e).eIllegal = s.eIllegal := rfl
@[simp] theorem State.logExc_port (e : Exc) : (s.logExc e).port = s.port := rfl
@[simp] theorem State.logExc_responses (e : Exc) : (s.logExc e).responses = s.responses := rfl
@[simp] theorem State.logExc_faultLog (e : Exc) : (s.logExc e).faultLog = s.faultLog ++ [e] := rfl

/-! `State.append` -/

@[simp] theorem State.append_cfg (b : Byte) : (s.append b).cfg = s.cfg := rfl
@[simp] theorem State.append_phase (b : Byte) : (s.append b).phase = s.phase := rfl
@[simp] theorem State.append_h (b : Byte) : (s.append b).h = s.h := rfl
@[simp] theorem State.append_msg (b : Byte) : (s.append b).msg = Memory.write s.msg s.len b := rfl
@[simp] theorem State.append_lcnt (b : Byte) : (s.append b).lcnt = s.lcnt + 8 := rfl
@[simp] theorem State.append_blk (b : Byte) : (s.append b).blk = s.blk := rfl
@[simp] theorem State.append_nblk (b : Byte) : (s.append b).nblk = s.nblk := rfl
@[simp] theorem State.append_digest (b : Byte) : (s.append b).digest = s.digest := rfl
@[simp] theorem State.append_dvalid (b : Byte) : (s.append b).dvalid = s.dvalid := rfl
@[simp] theorem State.append_eMisuse (b : Byte) : (s.append b).eMisuse = s.eMisuse := rfl
@[simp] theorem State.append_eTooLarge (b : Byte) : (s.append b).eTooLarge = s.eTooLarge := rfl
@[simp] theorem State.append_eIllegal (b : Byte) : (s.append b).eIllegal = s.eIllegal := rfl
@[simp] theorem State.append_port (b : Byte) : (s.append b).port = s.port := rfl
@[simp] theorem State.append_responses (b : Byte) : (s.append b).responses = s.responses := rfl
@[simp] theorem State.append_faultLog (b : Byte) : (s.append b).faultLog = s.faultLog := rfl

/-! `State.startPadding` -/

@[simp] theorem State.startPadding_cfg : (s.startPadding).cfg = s.cfg := rfl
@[simp] theorem State.startPadding_phase : (s.startPadding).phase = .padding := rfl
@[simp] theorem State.startPadding_h : (s.startPadding).h = s.h := rfl
@[simp] theorem State.startPadding_msg : (s.startPadding).msg = s.msg := rfl
@[simp] theorem State.startPadding_lcnt : (s.startPadding).lcnt = s.lcnt := rfl
@[simp] theorem State.startPadding_blk : (s.startPadding).blk = s.blk := rfl
@[simp] theorem State.startPadding_nblk : (s.startPadding).nblk = s.nblk := rfl
@[simp] theorem State.startPadding_digest : (s.startPadding).digest = s.digest := rfl
@[simp] theorem State.startPadding_dvalid : (s.startPadding).dvalid = s.dvalid := rfl
@[simp] theorem State.startPadding_eMisuse : (s.startPadding).eMisuse = s.eMisuse := rfl
@[simp] theorem State.startPadding_eTooLarge : (s.startPadding).eTooLarge = s.eTooLarge := rfl
@[simp] theorem State.startPadding_eIllegal : (s.startPadding).eIllegal = s.eIllegal := rfl
@[simp] theorem State.startPadding_port : (s.startPadding).port = s.port := rfl
@[simp] theorem State.startPadding_responses : (s.startPadding).responses = s.responses := rfl
@[simp] theorem State.startPadding_faultLog : (s.startPadding).faultLog = s.faultLog := rfl

/-! `State.frame` -/

@[simp] theorem State.frame_cfg : (s.frame).cfg = s.cfg := rfl
@[simp] theorem State.frame_phase : (s.frame).phase = .absorbing := rfl
@[simp] theorem State.frame_h : (s.frame).h = s.h := rfl
@[simp] theorem State.frame_msg : (s.frame).msg = s.msg := rfl
@[simp] theorem State.frame_lcnt : (s.frame).lcnt = s.lcnt := rfl
@[simp] theorem State.frame_blk : (s.frame).blk = 0 := rfl
@[simp] theorem State.frame_nblk : (s.frame).nblk = BitVec.ofNat 64 (blockCount s.len) := rfl
@[simp] theorem State.frame_digest : (s.frame).digest = s.digest := rfl
@[simp] theorem State.frame_dvalid : (s.frame).dvalid = s.dvalid := rfl
@[simp] theorem State.frame_eMisuse : (s.frame).eMisuse = s.eMisuse := rfl
@[simp] theorem State.frame_eTooLarge : (s.frame).eTooLarge = s.eTooLarge := rfl
@[simp] theorem State.frame_eIllegal : (s.frame).eIllegal = s.eIllegal := rfl
@[simp] theorem State.frame_port : (s.frame).port = s.port := rfl
@[simp] theorem State.frame_responses : (s.frame).responses = s.responses := rfl
@[simp] theorem State.frame_faultLog : (s.frame).faultLog = s.faultLog := rfl

/-! `State.absorb` -/

@[simp] theorem State.absorb_cfg (c : Chain) : (s.absorb c).cfg = s.cfg := rfl
@[simp] theorem State.absorb_phase (c : Chain) : (s.absorb c).phase = if s.blk + 1 = s.nblk then .finalized else s.phase := rfl
@[simp] theorem State.absorb_h (c : Chain) : (s.absorb c).h = some c := rfl
@[simp] theorem State.absorb_msg (c : Chain) : (s.absorb c).msg = s.msg := rfl
@[simp] theorem State.absorb_lcnt (c : Chain) : (s.absorb c).lcnt = s.lcnt := rfl
@[simp] theorem State.absorb_blk (c : Chain) : (s.absorb c).blk = s.blk + 1 := rfl
@[simp] theorem State.absorb_nblk (c : Chain) : (s.absorb c).nblk = s.nblk := rfl
@[simp] theorem State.absorb_digest (c : Chain) : (s.absorb c).digest = s.digest := rfl
@[simp] theorem State.absorb_dvalid (c : Chain) : (s.absorb c).dvalid = s.dvalid := rfl
@[simp] theorem State.absorb_eMisuse (c : Chain) : (s.absorb c).eMisuse = s.eMisuse := rfl
@[simp] theorem State.absorb_eTooLarge (c : Chain) : (s.absorb c).eTooLarge = s.eTooLarge := rfl
@[simp] theorem State.absorb_eIllegal (c : Chain) : (s.absorb c).eIllegal = s.eIllegal := rfl
@[simp] theorem State.absorb_port (c : Chain) : (s.absorb c).port = s.port := rfl
@[simp] theorem State.absorb_responses (c : Chain) : (s.absorb c).responses = s.responses := rfl
@[simp] theorem State.absorb_faultLog (c : Chain) : (s.absorb c).faultLog = s.faultLog := rfl

/-! `State.start` -/

@[simp] theorem State.start_cfg : (s.start).cfg = s.cfg := rfl
@[simp] theorem State.start_phase : (s.start).phase = .init := rfl
@[simp] theorem State.start_h : (s.start).h = some iv := rfl
@[simp] theorem State.start_msg : (s.start).msg = [] := rfl
@[simp] theorem State.start_lcnt : (s.start).lcnt = 0 := rfl
@[simp] theorem State.start_blk : (s.start).blk = 0 := rfl
@[simp] theorem State.start_nblk : (s.start).nblk = 0 := rfl
@[simp] theorem State.start_digest : (s.start).digest = none := rfl
@[simp] theorem State.start_dvalid : (s.start).dvalid = false := rfl
@[simp] theorem State.start_eMisuse : (s.start).eMisuse = false := rfl
@[simp] theorem State.start_eTooLarge : (s.start).eTooLarge = false := rfl
@[simp] theorem State.start_eIllegal : (s.start).eIllegal = false := rfl
@[simp] theorem State.start_port : (s.start).port = s.port := rfl
@[simp] theorem State.start_responses : (s.start).responses = s.responses := rfl
@[simp] theorem State.start_faultLog : (s.start).faultLog = s.faultLog := rfl

/-! `State.serialize` -/

@[simp] theorem State.serialize_cfg (c : Chain) : (s.serialize c).cfg = s.cfg := rfl
@[simp] theorem State.serialize_phase (c : Chain) : (s.serialize c).phase = s.phase := rfl
@[simp] theorem State.serialize_h (c : Chain) : (s.serialize c).h = s.h := rfl
@[simp] theorem State.serialize_msg (c : Chain) : (s.serialize c).msg = s.msg := rfl
@[simp] theorem State.serialize_lcnt (c : Chain) : (s.serialize c).lcnt = s.lcnt := rfl
@[simp] theorem State.serialize_blk (c : Chain) : (s.serialize c).blk = s.blk := rfl
@[simp] theorem State.serialize_nblk (c : Chain) : (s.serialize c).nblk = s.nblk := rfl
@[simp] theorem State.serialize_digest (c : Chain) : (s.serialize c).digest = some (ser c) := rfl
@[simp] theorem State.serialize_dvalid (c : Chain) : (s.serialize c).dvalid = true := rfl
@[simp] theorem State.serialize_eMisuse (c : Chain) : (s.serialize c).eMisuse = s.eMisuse := rfl
@[simp] theorem State.serialize_eTooLarge (c : Chain) : (s.serialize c).eTooLarge = s.eTooLarge := rfl
@[simp] theorem State.serialize_eIllegal (c : Chain) : (s.serialize c).eIllegal = s.eIllegal := rfl
@[simp] theorem State.serialize_port (c : Chain) : (s.serialize c).port = s.port := rfl
@[simp] theorem State.serialize_responses (c : Chain) : (s.serialize c).responses = s.responses := rfl
@[simp] theorem State.serialize_faultLog (c : Chain) : (s.serialize c).faultLog = s.faultLog := rfl

/-! `State.resetEvent` -/

@[simp] theorem State.resetEvent_cfg : (s.resetEvent).cfg = s.cfg := rfl
@[simp] theorem State.resetEvent_phase : (s.resetEvent).phase = .idle := rfl
@[simp] theorem State.resetEvent_h : (s.resetEvent).h = none := rfl
@[simp] theorem State.resetEvent_msg : (s.resetEvent).msg = [] := rfl
@[simp] theorem State.resetEvent_lcnt : (s.resetEvent).lcnt = 0 := rfl
@[simp] theorem State.resetEvent_blk : (s.resetEvent).blk = 0 := rfl
@[simp] theorem State.resetEvent_nblk : (s.resetEvent).nblk = 0 := rfl
@[simp] theorem State.resetEvent_digest : (s.resetEvent).digest = none := rfl
@[simp] theorem State.resetEvent_dvalid : (s.resetEvent).dvalid = false := rfl
@[simp] theorem State.resetEvent_eMisuse : (s.resetEvent).eMisuse = false := rfl
@[simp] theorem State.resetEvent_eTooLarge : (s.resetEvent).eTooLarge = false := rfl
@[simp] theorem State.resetEvent_eIllegal : (s.resetEvent).eIllegal = false := rfl
@[simp] theorem State.resetEvent_port : (s.resetEvent).port = s.port := rfl
@[simp] theorem State.resetEvent_responses : (s.resetEvent).responses = s.responses := rfl
@[simp] theorem State.resetEvent_faultLog : (s.resetEvent).faultLog = s.faultLog := rfl

/-! `State.enqueue` -/

@[simp] theorem State.enqueue_cfg (e : HostEvent) : (s.enqueue e).cfg = s.cfg := rfl
@[simp] theorem State.enqueue_phase (e : HostEvent) : (s.enqueue e).phase = s.phase := rfl
@[simp] theorem State.enqueue_h (e : HostEvent) : (s.enqueue e).h = s.h := rfl
@[simp] theorem State.enqueue_msg (e : HostEvent) : (s.enqueue e).msg = s.msg := rfl
@[simp] theorem State.enqueue_lcnt (e : HostEvent) : (s.enqueue e).lcnt = s.lcnt := rfl
@[simp] theorem State.enqueue_blk (e : HostEvent) : (s.enqueue e).blk = s.blk := rfl
@[simp] theorem State.enqueue_nblk (e : HostEvent) : (s.enqueue e).nblk = s.nblk := rfl
@[simp] theorem State.enqueue_digest (e : HostEvent) : (s.enqueue e).digest = s.digest := rfl
@[simp] theorem State.enqueue_dvalid (e : HostEvent) : (s.enqueue e).dvalid = s.dvalid := rfl
@[simp] theorem State.enqueue_eMisuse (e : HostEvent) : (s.enqueue e).eMisuse = s.eMisuse := rfl
@[simp] theorem State.enqueue_eTooLarge (e : HostEvent) : (s.enqueue e).eTooLarge = s.eTooLarge := rfl
@[simp] theorem State.enqueue_eIllegal (e : HostEvent) : (s.enqueue e).eIllegal = s.eIllegal := rfl
@[simp] theorem State.enqueue_port (e : HostEvent) : (s.enqueue e).port = s.port ++ [e] := rfl
@[simp] theorem State.enqueue_responses (e : HostEvent) : (s.enqueue e).responses = s.responses := rfl
@[simp] theorem State.enqueue_faultLog (e : HostEvent) : (s.enqueue e).faultLog = s.faultLog := rfl

/-! `State.issueFirst` -/

@[simp] theorem State.issueFirst_cfg (w : Word) : (s.issueFirst w).cfg = s.cfg := rfl
@[simp] theorem State.issueFirst_phase (w : Word) : (s.issueFirst w).phase = s.phase := rfl
@[simp] theorem State.issueFirst_h (w : Word) : (s.issueFirst w).h = s.h := rfl
@[simp] theorem State.issueFirst_msg (w : Word) : (s.issueFirst w).msg = s.msg := rfl
@[simp] theorem State.issueFirst_lcnt (w : Word) : (s.issueFirst w).lcnt = s.lcnt := rfl
@[simp] theorem State.issueFirst_blk (w : Word) : (s.issueFirst w).blk = s.blk := rfl
@[simp] theorem State.issueFirst_nblk (w : Word) : (s.issueFirst w).nblk = s.nblk := rfl
@[simp] theorem State.issueFirst_digest (w : Word) : (s.issueFirst w).digest = s.digest := rfl
@[simp] theorem State.issueFirst_dvalid (w : Word) : (s.issueFirst w).dvalid = s.dvalid := rfl
@[simp] theorem State.issueFirst_eMisuse (w : Word) : (s.issueFirst w).eMisuse = s.eMisuse := rfl
@[simp] theorem State.issueFirst_eTooLarge (w : Word) : (s.issueFirst w).eTooLarge = s.eTooLarge := rfl
@[simp] theorem State.issueFirst_eIllegal (w : Word) : (s.issueFirst w).eIllegal = s.eIllegal := rfl
@[simp] theorem State.issueFirst_port (w : Word) : (s.issueFirst w).port = .command w :: s.port := rfl
@[simp] theorem State.issueFirst_responses (w : Word) : (s.issueFirst w).responses = s.responses := rfl
@[simp] theorem State.issueFirst_faultLog (w : Word) : (s.issueFirst w).faultLog = s.faultLog := rfl

/-! `State.issueAll` -/

@[simp] theorem State.issueAll_cfg (is : List Instr) : (s.issueAll is).cfg = s.cfg := rfl
@[simp] theorem State.issueAll_phase (is : List Instr) : (s.issueAll is).phase = s.phase := rfl
@[simp] theorem State.issueAll_h (is : List Instr) : (s.issueAll is).h = s.h := rfl
@[simp] theorem State.issueAll_msg (is : List Instr) : (s.issueAll is).msg = s.msg := rfl
@[simp] theorem State.issueAll_lcnt (is : List Instr) : (s.issueAll is).lcnt = s.lcnt := rfl
@[simp] theorem State.issueAll_blk (is : List Instr) : (s.issueAll is).blk = s.blk := rfl
@[simp] theorem State.issueAll_nblk (is : List Instr) : (s.issueAll is).nblk = s.nblk := rfl
@[simp] theorem State.issueAll_digest (is : List Instr) : (s.issueAll is).digest = s.digest := rfl
@[simp] theorem State.issueAll_dvalid (is : List Instr) : (s.issueAll is).dvalid = s.dvalid := rfl
@[simp] theorem State.issueAll_eMisuse (is : List Instr) : (s.issueAll is).eMisuse = s.eMisuse := rfl
@[simp] theorem State.issueAll_eTooLarge (is : List Instr) : (s.issueAll is).eTooLarge = s.eTooLarge := rfl
@[simp] theorem State.issueAll_eIllegal (is : List Instr) : (s.issueAll is).eIllegal = s.eIllegal := rfl
@[simp] theorem State.issueAll_port (is : List Instr) : (s.issueAll is).port = s.port ++ is.map fun i => .command (encode i) := rfl
@[simp] theorem State.issueAll_responses (is : List Instr) : (s.issueAll is).responses = s.responses := rfl
@[simp] theorem State.issueAll_faultLog (is : List Instr) : (s.issueAll is).faultLog = s.faultLog := rfl

/-! `State.setFlag`: only the flag of the exception changes. -/

@[simp] theorem State.setFlag_cfg (e : Exc) : (s.setFlag e).cfg = s.cfg := by cases e <;> rfl
@[simp] theorem State.setFlag_phase (e : Exc) : (s.setFlag e).phase = s.phase := by cases e <;> rfl
@[simp] theorem State.setFlag_h (e : Exc) : (s.setFlag e).h = s.h := by cases e <;> rfl
@[simp] theorem State.setFlag_msg (e : Exc) : (s.setFlag e).msg = s.msg := by cases e <;> rfl
@[simp] theorem State.setFlag_lcnt (e : Exc) : (s.setFlag e).lcnt = s.lcnt := by cases e <;> rfl
@[simp] theorem State.setFlag_blk (e : Exc) : (s.setFlag e).blk = s.blk := by cases e <;> rfl
@[simp] theorem State.setFlag_nblk (e : Exc) : (s.setFlag e).nblk = s.nblk := by cases e <;> rfl
@[simp] theorem State.setFlag_digest (e : Exc) : (s.setFlag e).digest = s.digest := by cases e <;> rfl
@[simp] theorem State.setFlag_dvalid (e : Exc) : (s.setFlag e).dvalid = s.dvalid := by cases e <;> rfl
@[simp] theorem State.setFlag_eMisuse (e : Exc) : (s.setFlag e).eMisuse = (s.eMisuse || e == .misuseError) := by
  cases e <;> simp [State.setFlag]
@[simp] theorem State.setFlag_eTooLarge (e : Exc) : (s.setFlag e).eTooLarge = (s.eTooLarge || e == .inputTooLarge) := by
  cases e <;> simp [State.setFlag]
@[simp] theorem State.setFlag_eIllegal (e : Exc) : (s.setFlag e).eIllegal = (s.eIllegal || e == .illegalCommand) := by
  cases e <;> simp [State.setFlag]
@[simp] theorem State.setFlag_port (e : Exc) : (s.setFlag e).port = s.port := by cases e <;> rfl
@[simp] theorem State.setFlag_responses (e : Exc) : (s.setFlag e).responses = s.responses := by cases e <;> rfl
@[simp] theorem State.setFlag_faultLog (e : Exc) : (s.setFlag e).faultLog = s.faultLog := by cases e <;> rfl

/-! `State.raised` -/

@[simp] theorem State.raised_cfg (e : Exc) : (s.raised e).cfg = s.cfg := by simp [State.raised]
@[simp] theorem State.raised_phase (e : Exc) : (s.raised e).phase = s.phase := by simp [State.raised]
@[simp] theorem State.raised_h (e : Exc) : (s.raised e).h = s.h := by simp [State.raised]
@[simp] theorem State.raised_msg (e : Exc) : (s.raised e).msg = s.msg := by simp [State.raised]
@[simp] theorem State.raised_lcnt (e : Exc) : (s.raised e).lcnt = s.lcnt := by simp [State.raised]
@[simp] theorem State.raised_blk (e : Exc) : (s.raised e).blk = s.blk := by simp [State.raised]
@[simp] theorem State.raised_nblk (e : Exc) : (s.raised e).nblk = s.nblk := by simp [State.raised]
@[simp] theorem State.raised_digest (e : Exc) : (s.raised e).digest = s.digest := by simp [State.raised]
@[simp] theorem State.raised_dvalid (e : Exc) : (s.raised e).dvalid = s.dvalid := by simp [State.raised]
@[simp] theorem State.raised_eMisuse (e : Exc) : (s.raised e).eMisuse = (s.eMisuse || e == .misuseError) := by
  simp [State.raised]
@[simp] theorem State.raised_eTooLarge (e : Exc) : (s.raised e).eTooLarge = (s.eTooLarge || e == .inputTooLarge) := by
  simp [State.raised]
@[simp] theorem State.raised_eIllegal (e : Exc) : (s.raised e).eIllegal = (s.eIllegal || e == .illegalCommand) := by
  simp [State.raised]
@[simp] theorem State.raised_port (e : Exc) : (s.raised e).port = s.port := by simp [State.raised]
@[simp] theorem State.raised_responses (e : Exc) : (s.raised e).responses = s.responses ++ [⟨excCode e, 0⟩] := by simp [State.raised]
@[simp] theorem State.raised_faultLog (e : Exc) : (s.raised e).faultLog = s.faultLog ++ [e] := by simp [State.raised]

@[simp] theorem State.flag_raised_self (e : Exc) : (s.raised e).flag e = true := by
  cases e <;> simp [State.flag]

/-! LEN and CAP_EFF depend on LCNT and on the configuration alone. -/

theorem State.len_eq_div : s.len = s.lcnt.toNat / 8 := by
  simp [State.len, BitVec.toNat_ushiftRight, Nat.shiftRight_eq_div_pow]

theorem State.len_congr {s t : State} (h : t.lcnt = s.lcnt) : t.len = s.len := by simp [State.len, h]

theorem State.capEff_congr {s t : State} (h : t.cfg = s.cfg) : t.capEff = s.capEff := by simp [State.capEff, h]

@[simp] theorem State.reply_len (r : Response) : (s.reply r).len = s.len := rfl
@[simp] theorem State.reply_capEff (r : Response) : (s.reply r).capEff = s.capEff := rfl
@[simp] theorem State.logExc_len (e : Exc) : (s.logExc e).len = s.len := rfl
@[simp] theorem State.logExc_capEff (e : Exc) : (s.logExc e).capEff = s.capEff := rfl
@[simp] theorem State.append_capEff (b : Byte) : (s.append b).capEff = s.capEff := rfl
@[simp] theorem State.startPadding_len : (s.startPadding).len = s.len := rfl
@[simp] theorem State.startPadding_capEff : (s.startPadding).capEff = s.capEff := rfl
@[simp] theorem State.frame_len : (s.frame).len = s.len := rfl
@[simp] theorem State.frame_capEff : (s.frame).capEff = s.capEff := rfl
@[simp] theorem State.absorb_len (c : Chain) : (s.absorb c).len = s.len := rfl
@[simp] theorem State.absorb_capEff (c : Chain) : (s.absorb c).capEff = s.capEff := rfl
@[simp] theorem State.start_capEff : (s.start).capEff = s.capEff := rfl
@[simp] theorem State.serialize_len (c : Chain) : (s.serialize c).len = s.len := rfl
@[simp] theorem State.serialize_capEff (c : Chain) : (s.serialize c).capEff = s.capEff := rfl
@[simp] theorem State.resetEvent_capEff : (s.resetEvent).capEff = s.capEff := rfl
@[simp] theorem State.enqueue_len (e : HostEvent) : (s.enqueue e).len = s.len := rfl
@[simp] theorem State.enqueue_capEff (e : HostEvent) : (s.enqueue e).capEff = s.capEff := rfl
@[simp] theorem State.issueFirst_len (w : Word) : (s.issueFirst w).len = s.len := rfl
@[simp] theorem State.issueFirst_capEff (w : Word) : (s.issueFirst w).capEff = s.capEff := rfl
@[simp] theorem State.issueAll_len (is : List Instr) : (s.issueAll is).len = s.len := rfl
@[simp] theorem State.issueAll_capEff (is : List Instr) : (s.issueAll is).capEff = s.capEff := rfl
@[simp] theorem State.setFlag_len (e : Exc) : (s.setFlag e).len = s.len := State.len_congr (by simp)
@[simp] theorem State.setFlag_capEff (e : Exc) : (s.setFlag e).capEff = s.capEff := State.capEff_congr (by simp)
@[simp] theorem State.raised_len (e : Exc) : (s.raised e).len = s.len := State.len_congr (by simp)
@[simp] theorem State.raised_capEff (e : Exc) : (s.raised e).capEff = s.capEff := State.capEff_congr (by simp)

theorem State.len_lt : s.len < 2 ^ 61 := by
  have := s.lcnt.isLt
  rw [State.len_eq_div]
  omega

theorem State.capEff_le : s.capEff ≤ 2 ^ 61 - 1 := Nat.min_le_right _ _

/-- The lock is the disjunction of the three flags (spec/60_exceptions.md R233). -/
theorem locked_eq_true_iff : locked s = true ↔ s.eMisuse = true ∨ s.eTooLarge = true ∨ s.eIllegal = true := by
  simp [locked, Bool.or_assoc]

theorem locked_eq_false_iff :
    locked s = false ↔ s.eMisuse = false ∧ s.eTooLarge = false ∧ s.eIllegal = false := by
  simp [locked, and_assoc]

end Sys2Proof.Machine
end

