-- ==== Sys2Proof/Laws/Exec.lean ====
section
/-! SUPPORT. Everything each shared operation and each meaning can do, said once. -/

namespace Sys2Proof.Machine

theorem raise_eq_next_iff {e : Exc} {s t : State} : raise e s = .next t ↔ t = s.raised e := by
  simp [raise, eq_comm]

theorem respond_eq_next_iff {d : Word} {s t : State} : respond d s = .next t ↔ t = s.reply ⟨0, d⟩ := by
  simp [respond, eq_comm]

/-- What PUSH can do (spec/41_padder.md R103). -/
theorem execPush_cases (b : Byte) (s : State) :
    ((locked s = true ∨ s.phase ≠ .init) ∧ execPush b s = .next (s.raised .misuseError)) ∨
    (locked s = false ∧ s.phase = .init ∧ s.capEff ≤ s.len ∧ execPush b s = .next (s.raised .inputTooLarge)) ∨
    (locked s = false ∧ s.phase = .init ∧ s.len < s.capEff ∧
      execPush b s = .next ((s.append b).reply ⟨0, 0⟩)) := by
  unfold execPush raise respond
  split
  · simp_all
  · split
    · simp_all
    · split
      · simp_all
      · simp_all

/-- What PAD can do (spec/41_padder.md R105). -/
theorem execPad_cases (s : State) :
    ((locked s = true ∨ s.phase ≠ .init) ∧ execPad s = .next (s.raised .misuseError)) ∨
    (locked s = false ∧ s.phase = .init ∧ execPad s = .next (s.startPadding.frame.reply ⟨0, 0⟩)) := by
  unfold execPad raise respond
  split
  · simp_all
  · split <;> simp_all

/-- What COMPRESS can do (spec/42_compressor.md R160). -/
theorem execCompress_cases (s : State) :
    ((locked s = true ∨ s.phase ≠ .absorbing) ∧ execCompress s = .next (s.raised .misuseError)) ∨
    (locked s = false ∧ s.phase = .absorbing ∧
      ((s.h = none ∧ execCompress s = .fault .chainHoldsNoValue) ∨
        (∃ f, blockAt s s.blk.toNat = .error f ∧ s.h.isSome ∧ execCompress s = .fault f) ∨
        ∃ c b, s.h = some c ∧ blockAt s s.blk.toNat = .ok b ∧
          execCompress s = .next ((s.absorb (compress c b)).reply ⟨0, 0⟩))) := by
  unfold execCompress raise respond
  split
  · simp_all
  · split
    · simp_all
    · refine .inr ⟨by simp_all, by simp_all, ?_⟩
      split <;> simp_all

/-- What FINALIZE can do (spec/43_driver_serializer.md R191). -/
theorem execFinalize_cases (s : State) :
    ((locked s = true ∨ s.phase ≠ .finalized ∨ s.dvalid = true) ∧
      execFinalize s = .next (s.raised .misuseError)) ∨
    (locked s = false ∧ s.phase = .finalized ∧ s.dvalid = false ∧
      ((s.h = none ∧ execFinalize s = .fault .chainHoldsNoValue) ∨
        ∃ c, s.h = some c ∧ execFinalize s = .next ((s.serialize c).reply ⟨0, 0⟩))) := by
  unfold execFinalize raise respond
  split
  · simp_all
  · split
    · simp_all
    · split
      · simp_all
      · refine .inr ⟨by simp_all, by simp_all, by simp_all, ?_⟩
        split <;> simp_all

/-- What RDREG can do (spec/43_driver_serializer.md R200). -/
theorem execRdreg_cases (r : Byte) (s : State) :
    (regOfNumber r = none ∧ execRdreg r s = .next (s.raised .illegalCommand)) ∨
    ∃ reg, regOfNumber r = some reg ∧
      ((readIsMisuse s reg = true ∧ execRdreg r s = .next (s.raised .misuseError)) ∨
        (readIsMisuse s reg = false ∧
          ((∃ f, regValue s reg = .error f ∧ execRdreg r s = .fault f) ∨
            ∃ d, regValue s reg = .ok d ∧ execRdreg r s = .next (s.reply ⟨0, d⟩)))) := by
  unfold execRdreg raise respond
  split
  · simp_all
  · rename_i reg hreg
    refine .inr ⟨reg, hreg, ?_⟩
    split
    · simp_all
    · refine .inr ⟨by simp_all, ?_⟩
      split <;> simp_all

/-- What one command can do when it answers a next state: raise one exception, or respond after its own effect. -/
theorem exec_next_cases {i : Instr} {s t : State} (h : exec i s = .next t) :
    (∃ e, t = s.raised e ∧ i ≠ .init) ∨
    (i = .init ∧ t = s.start.reply ⟨0, 0⟩) ∨
    (∃ b, i = .push b ∧ locked s = false ∧ s.phase = .init ∧ s.len < s.capEff ∧
      t = (s.append b).reply ⟨0, 0⟩) ∨
    (i = .pad ∧ locked s = false ∧ s.phase = .init ∧ t = s.startPadding.frame.reply ⟨0, 0⟩) ∨
    (∃ c b, i = .compress ∧ locked s = false ∧ s.phase = .absorbing ∧ s.h = some c ∧
      blockAt s s.blk.toNat = .ok b ∧ t = (s.absorb (compress c b)).reply ⟨0, 0⟩) ∨
    (∃ c, i = .finalize ∧ locked s = false ∧ s.phase = .finalized ∧ s.dvalid = false ∧ s.h = some c ∧
      t = (s.serialize c).reply ⟨0, 0⟩) ∨
    (∃ r reg d, i = .rdreg r ∧ regOfNumber r = some reg ∧ readIsMisuse s reg = false ∧
      regValue s reg = .ok d ∧ t = s.reply ⟨0, d⟩) := by
  cases i with
  | init =>
    right; left
    exact ⟨rfl, respond_eq_next_iff.1 h⟩
  | push b =>
    change execPush b s = _ at h
    rcases execPush_cases b s with ⟨_, e⟩ | ⟨_, _, _, e⟩ | ⟨h1, h2, h3, e⟩ <;> rw [h] at e <;> cases e
    · exact .inl ⟨_, rfl, by simp⟩
    · exact .inl ⟨_, rfl, by simp⟩
    · exact .inr <| .inr <| .inl ⟨b, rfl, h1, h2, h3, rfl⟩
  | pad =>
    change execPad s = _ at h
    rcases execPad_cases s with ⟨_, e⟩ | ⟨h1, h2, e⟩ <;> rw [h] at e <;> cases e
    · exact .inl ⟨_, rfl, by simp⟩
    · exact .inr <| .inr <| .inr <| .inl ⟨rfl, h1, h2, rfl⟩
  | compress =>
    change execCompress s = _ at h
    rcases execCompress_cases s with ⟨_, e⟩ | ⟨h1, h2, ⟨_, e⟩ | ⟨f, _, _, e⟩ | ⟨c, b, h3, h4, e⟩⟩ <;>
      rw [h] at e <;> cases e
    · exact .inl ⟨_, rfl, by simp⟩
    · exact .inr <| .inr <| .inr <| .inr <| .inl ⟨c, b, rfl, h1, h2, h3, h4, rfl⟩
  | finalize =>
    change execFinalize s = _ at h
    rcases execFinalize_cases s with ⟨_, e⟩ | ⟨h1, h2, h3, ⟨_, e⟩ | ⟨c, h4, e⟩⟩ <;>
      rw [h] at e <;> cases e
    · exact .inl ⟨_, rfl, by simp⟩
    · exact .inr <| .inr <| .inr <| .inr <| .inr <| .inl ⟨c, rfl, h1, h2, h3, h4, rfl⟩
  | rdreg r =>
    change execRdreg r s = _ at h
    rcases execRdreg_cases r s with ⟨_, e⟩ | ⟨reg, h1, ⟨_, e⟩ | ⟨h2, ⟨f, _, e⟩ | ⟨d, h3, e⟩⟩⟩ <;>
      rw [h] at e <;> cases e
    · exact .inl ⟨_, rfl, by simp⟩
    · exact .inl ⟨_, rfl, by simp⟩
    · exact .inr <| .inr <| .inr <| .inr <| .inr <| .inr ⟨r, reg, d, rfl, h1, h2, h3, rfl⟩

/-- What one step can do when it answers a next state: nothing, a command, IllegalCommand or a reset. -/
theorem step_next_cases {s t : State} (h : step s = .next t) :
    (s.port = [] ∧ t = s) ∨
    ∃ e rest, s.port = e :: rest ∧
      ((∃ w i, e = .command w ∧ decode w = .command i ∧ exec i { s with port := rest } = .next t) ∨
        (∃ w why, e = .command w ∧ decode w = .illegal why ∧
          t = State.raised { s with port := rest } .illegalCommand) ∨
        (e = .reset ∧ t = State.resetEvent { s with port := rest })) := by
  unfold step servePort at h
  split at h
  · rename_i hp
    injection h with h
    exact .inl ⟨hp, h.symm⟩
  · rename_i e rest hp
    refine .inr ⟨e, rest, hp, ?_⟩
    cases e with
    | command w =>
      simp only [takeEvent, runWord] at h
      split at h
      · exact .inl ⟨w, _, rfl, ‹_›, h⟩
      · exact .inr (.inl ⟨w, _, rfl, ‹_›, raise_eq_next_iff.1 h⟩)
    | reset =>
      injection h with h
      exact .inr (.inr ⟨rfl, h.symm⟩)

end Sys2Proof.Machine
end

