-- ==== Sys2Proof/Laws/Memory.lean ====
section
/-! SUPPORT. The message buffer: a read after a write, and the canonical form every operation keeps. -/

namespace Sys2Proof.Machine

theorem Memory.read_write_same (m : Memory) (p : Nat) (b : Byte) : Memory.read (Memory.write m p b) p = some b := by
  induction m with
  | nil => simp [Memory.write, Memory.read]
  | cons c m ih =>
    obtain ⟨a, v⟩ := c
    simp only [Memory.write]
    split
    · simp [Memory.read]
    · split
      · simp [Memory.read]
      · simp [Memory.read, *]

theorem Memory.read_write_other (m : Memory) {p q : Nat} (b : Byte) (h : q ≠ p) :
    Memory.read (Memory.write m p b) q = Memory.read m q := by
  induction m with
  | nil => simp [Memory.write, Memory.read, h]
  | cons c m ih =>
    obtain ⟨a, v⟩ := c
    simp only [Memory.write]
    split
    · simp [Memory.read, h]
    · split
      · subst_vars
        simp [Memory.read, h]
      · simp [Memory.read, ih]

/-- The cells of a written buffer: the cell written and cells that were there. -/
theorem Memory.mem_write {m : Memory} {p : Nat} {b : Byte} {c : Host.Cell} (h : c ∈ Memory.write m p b) :
    c = (p, b) ∨ c ∈ m := by
  induction m with
  | nil => simpa [Memory.write] using h
  | cons d m ih =>
    obtain ⟨a, v⟩ := d
    simp only [Memory.write] at h
    split at h
    · simpa using h
    · split at h
      · rcases List.mem_cons.1 h with h | h
        · exact .inl h
        · exact .inr (List.mem_cons_of_mem _ h)
      · rcases List.mem_cons.1 h with h | h
        · exact .inr (h ▸ List.mem_cons_self)
        · exact (ih h).imp_right (List.mem_cons_of_mem _)

/-- R7: CAP_EFF in numbers. -/
theorem State.capEff_eq (s : State) : s.capEff = min s.cfg.msgCap (2 ^ 61 - 1) := rfl

theorem Memory.wf_nil : Memory.wf [] := List.Pairwise.nil

theorem Memory.write_wf {m : Memory} (h : Memory.wf m) (p : Nat) (b : Byte) : Memory.wf (Memory.write m p b) := by
  induction m with
  | nil => simp [Memory.write, Memory.wf]
  | cons d m ih =>
    obtain ⟨a, v⟩ := d
    obtain ⟨hhead, htail⟩ := List.pairwise_cons.1 h
    simp only [Memory.write]
    split
    · rename_i hlt
      refine List.pairwise_cons.2 ⟨fun c hc => ?_, h⟩
      rcases List.mem_cons.1 hc with rfl | hc
      · exact hlt
      · exact Nat.lt_trans hlt (hhead c hc)
    · split
      · rename_i heq
        subst heq
        exact List.pairwise_cons.2 ⟨hhead, htail⟩
      · refine List.pairwise_cons.2 ⟨fun c hc => ?_, ih htail⟩
        rcases Memory.mem_write hc with rfl | hc
        · show a < p
          omega
        · exact hhead c hc

/-- A write past every listed position appends one cell. -/
theorem Memory.write_past {m : Memory} {p : Nat} (h : ∀ c ∈ m, c.1 < p) (b : Byte) :
    Memory.write m p b = m ++ [(p, b)] := by
  induction m with
  | nil => rfl
  | cons d m ih =>
    obtain ⟨a, v⟩ := d
    have ha : a < p := h (a, v) List.mem_cons_self
    simp only [Memory.write, List.cons_append]
    rw [if_neg (by omega), if_neg (by omega), ih fun c hc => h c (List.mem_cons_of_mem _ hc)]

/-- A buffer whose positions are start, start + 1, ... reads as the list of its bytes. -/
theorem Memory.read_range' {m : Memory} {start : Nat} (h : m.map Prod.fst = List.range' start m.length) (p : Nat) :
    Memory.read m (start + p) = (m.map Prod.snd)[p]? := by
  induction m generalizing start p with
  | nil => simp [Memory.read]
  | cons d m ih =>
    obtain ⟨a, v⟩ := d
    simp only [List.map_cons, List.length_cons, List.range'_succ, List.cons.injEq] at h
    obtain ⟨rfl, htail⟩ := h
    cases p with
    | zero => simp [Memory.read]
    | succ p =>
      have := ih htail p
      simp only [Memory.read, List.map_cons, List.getElem?_cons_succ, ← this]
      rw [if_neg (by omega)]
      congr 1
      omega

/-- The message bytes of a buffer that holds exactly the positions 0 .. n - 1. -/
theorem Memory.read_of_cells {m : Memory} {n : Nat} (h : m.map Prod.fst = List.range n) (p : Nat) :
    Memory.read m p = (m.map Prod.snd)[p]? := by
  have hlen : m.length = n := by simpa using congrArg List.length h
  have := Memory.read_range' (m := m) (start := 0) (by rw [h, hlen, List.range_eq_range']) p
  simpa using this

theorem Memory.length_of_cells {m : Memory} {n : Nat} (h : m.map Prod.fst = List.range n) : m.length = n := by
  simpa using congrArg List.length h

/-- Appending at position n a buffer that holds exactly the positions below n. -/
theorem Memory.write_of_cells {m : Memory} {n : Nat} (h : m.map Prod.fst = List.range n) (b : Byte) :
    Memory.write m n b = m ++ [(n, b)] := by
  refine Memory.write_past (fun c hc => ?_) b
  have : c.1 ∈ m.map Prod.fst := List.mem_map_of_mem hc
  rw [h] at this
  exact List.mem_range.1 this

theorem Memory.cells_write {m : Memory} {n : Nat} (h : m.map Prod.fst = List.range n) (b : Byte) :
    (Memory.write m n b).map Prod.fst = List.range (n + 1) := by
  rw [Memory.write_of_cells h, List.map_append, h, List.range_succ]
  rfl

/-- Cells at exactly the positions 0 .. n - 1 are in canonical form. -/
theorem Memory.wf_of_cells {m : Memory} {n : Nat} (h : m.map Prod.fst = List.range n) : Memory.wf m := by
  have hp : (m.map Prod.fst).Pairwise (· < ·) := h ▸ List.pairwise_lt_range
  exact List.pairwise_map.1 hp

/-! Every operation that touches the message buffer keeps its canonical form. -/

theorem State.append_msg_wf {s : State} (h : Memory.wf s.msg) (b : Byte) : Memory.wf (s.append b).msg :=
  Memory.write_wf h s.len b

theorem State.start_msg_wf (s : State) : Memory.wf s.start.msg := Memory.wf_nil

theorem State.resetEvent_msg_wf (s : State) : Memory.wf s.resetEvent.msg := Memory.wf_nil

theorem State.reset_msg_wf : Memory.wf State.reset.msg := Memory.wf_nil

end Sys2Proof.Machine
end

