-- ==== Sys2Proof/Laws/Framer.lean ====
section
/-! SUPPORT. The message buffer as the framer sees it, and blocks as rows of framed bytes. -/

namespace Sys2Proof.Machine

/-- The message an instance holds: its bytes in order of position. -/
theorem msgRead_ok {s : State} (hcells : s.msg.map Prod.fst = List.range s.len) {p : Nat} (hp : p < s.len) :
    ∃ b, (s.msg.map Prod.snd)[p]? = some b ∧ msgRead s p = .ok b := by
  have hlen : p < (s.msg.map Prod.snd).length := by
    rw [List.length_map, Memory.length_of_cells hcells]; exact hp
  refine ⟨(s.msg.map Prod.snd)[p], List.getElem?_eq_getElem hlen, ?_⟩
  unfold msgRead
  rw [if_pos hp, Memory.read_of_cells hcells p, List.getElem?_eq_getElem hlen]

/-- Inside its range the framer answers a byte, whatever the position. -/
theorem padByte_ok {s : State} (hf : s.framed = true) (hcells : s.msg.map Prod.fst = List.range s.len) {p : Nat}
    (hp : p < s.paddedLength) : ∃ b, padByte s p = .ok b := by
  unfold padByte
  rw [if_neg (by simp [hf]; omega)]
  split
  · rename_i h
    obtain ⟨b, _, hb⟩ := msgRead_ok hcells h
    exact ⟨b, hb⟩
  · split
    · exact ⟨_, rfl⟩
    · split <;> exact ⟨_, rfl⟩

/-- A row of framed bytes is the framed bytes, one by one. -/
theorem padBytes_ok_iff {s : State} {start n : Nat} {v : Vector Byte n} :
    padBytes s start n = .ok v ↔ ∀ j (h : j < n), padByte s (start + j) = .ok v[j] := by
  induction n with
  | zero =>
    constructor
    · intro _ j h; omega
    · intro _
      show Except.ok _ = _
      congr 1
      ext i hi; omega
  | succ n ih =>
    simp only [padBytes]
    constructor
    · intro h j hj
      split at h
      · cases h
      · rename_i u hu
        split at h
        · cases h
        · rename_i b hb
          injection h with h
          subst h
          rcases Nat.lt_or_ge j n with hjn | hjn
          · rw [ih.1 hu j hjn]; congr 1; simp [hjn]
          · obtain rfl : j = n := by omega
            rw [hb]; congr 1; simp
    · intro h
      have h1 : padBytes s start n = .ok v.pop := by
        rw [ih]
        intro j hj
        rw [h j (by omega)]
        congr 1
        simp
      rw [h1]
      simp only [h n (Nat.lt_succ_self n)]
      congr 1
      ext i hi
      rcases Nat.lt_or_ge i n with hin | hin
      · simp [hin]
      · obtain rfl : i = n := by omega
        simp

/-- Every block below NBLK is a block of framed bytes. -/
theorem blockAt_ok {s : State} (hf : s.framed = true) (hcells : s.msg.map Prod.fst = List.range s.len) {i : Nat}
    (hi : i < s.nblk.toNat) :
    ∃ b : Block, blockAt s i = .ok b ∧ ∀ j (h : j < 64), padByte s (64 * i + j) = .ok b[j] := by
  have hall : ∀ n ≤ 64, ∃ v, padBytes s (64 * i) n = .ok v := by
    intro n hn
    induction n with
    | zero => exact ⟨_, rfl⟩
    | succ n ih =>
      obtain ⟨v, hv⟩ := ih (by omega)
      obtain ⟨b, hb⟩ := padByte_ok hf hcells (p := 64 * i + n) (by unfold State.paddedLength; omega)
      exact ⟨v.push b, by simp [padBytes, hv, hb]⟩
  obtain ⟨v, hv⟩ := hall 64 (Nat.le_refl _)
  exact ⟨v, by simp [blockAt, hi, hv], padBytes_ok_iff.1 hv⟩

end Sys2Proof.Machine
end

