-- ==== Sys2Proof/Laws/Operands.lean ====
section
/-! SUPPORT. The register space by number (spec/10_state.md R36). -/

namespace Sys2Proof.Machine

theorem regOfNumber_chain (j : Nat) (h : j < 8) : regOfNumber (BitVec.ofNat 8 j) = some (.chain ⟨j, h⟩) := by
  revert j; decide

theorem regOfNumber_digest (k : Nat) (h : k < 32) :
    regOfNumber (BitVec.ofNat 8 (0x20 + k)) = some (.digest ⟨k, h⟩) := by
  revert k; decide

/-- The numbers without a register are the unassigned ones of R36. -/
theorem regOfNumber_eq_none_iff (r : Byte) : regOfNumber r = none ↔ unassignedNumber r = true := by
  revert r; decide +kernel

/-- STATUS is the one register that reads the error flags. -/
theorem regOfNumber_status (r : Byte) (h : regOfNumber r = some .status) : r = 0x08 := by
  revert r; decide +kernel

/-- A register other than STATUS reads the same whatever the error flags are. -/
theorem regValue_flags (s : State) {reg : Reg} (h : reg ≠ .status) (a b c : Bool) :
    regValue { s with eMisuse := a, eTooLarge := b, eIllegal := c } reg = regValue s reg := by
  cases reg <;> first | rfl | exact absurd rfl h

/-- When a read that raises nothing has a value: always, but for H or DIGEST without a value. -/
theorem regValue_ok {s : State} (hh : s.h = none → s.phase = .idle) (hd : s.digest = none → s.dvalid = false)
    {reg : Reg} (hm : readIsMisuse s reg = false) : ∃ d, regValue s reg = .ok d := by
  cases reg with
  | chain j =>
    cases h : s.h with
    | none => simp [readIsMisuse, hh h] at hm
    | some hv => exact ⟨hv[j], by simp [regValue, h]⟩
  | digest k =>
    cases h : s.digest with
    | none => simp [readIsMisuse, hd h] at hm
    | some d => exact ⟨d[k].zeroExtend 32, by simp [regValue, h]⟩
  | _ => exact ⟨_, rfl⟩

end Sys2Proof.Machine
end

