-- ==== Sys2Proof/Laws/PerInstr.lean ====
section
/-! SUPPORT. The statement made for every command of Instr: its encoded word is selected by its own row of the opcode
map (spec/30_encoding.md R74) and is a well-formed command word (R71, R72). One lemma per constructor. -/

namespace Sys2Proof.Laws.TableRow

/-- The word of a command is in its own row of the opcode map, and no reserved field of it is set. -/
def Statement (i : Instr) : Prop :=
  i.row.selectedBy (encode i) = true ∧ wordWellFormed (encode i) = true

theorem init : Statement .init := by unfold Statement; decide
theorem push (imm : Byte) : Statement (.push imm) := by
  unfold Statement; revert imm; decide +kernel
theorem pad : Statement .pad := by unfold Statement; decide
theorem compress : Statement .compress := by unfold Statement; decide
theorem finalize : Statement .finalize := by unfold Statement; decide
theorem rdreg (r : Byte) : Statement (.rdreg r) := by
  unfold Statement; revert r; decide +kernel

end Sys2Proof.Laws.TableRow
end

