-- ==== Sys2Proof/Laws/Platform.lean ====
section
/-! SUPPORT. What the operations of a platform do to each of its instances. -/

namespace Sys2Proof.Machine

variable {n : Nat} (p : Platform n)

theorem Platform.setChip_same (k : Fin (n + 1)) (s : State) : (p.setChip k s)[k] = ⟨p[k].host, s⟩ := by
  simp [Platform.setChip]

theorem Platform.setChip_other {j k : Fin (n + 1)} (h : j ≠ k) (s : State) : (p.setChip k s)[j] = p[j] := by
  have hv : k.val ≠ j.val := fun e => h (Fin.ext e.symm)
  simp [Platform.setChip, Vector.getElem_set_ne, hv]

/-- When a step of instance k answers a next platform. -/
theorem Platform.stepAt_eq_next_iff {k : Fin (n + 1)} {q : Platform n} :
    p.stepAt k = .next q ↔ ∃ t, step p[k].chip = .next t ∧ q = p.setChip k t := by
  unfold Platform.stepAt
  generalize step p[k].chip = r
  cases r <;> simp [eq_comm]

/-- R244: every instance leaves reset on its own, in the state after reset of its own capacity. -/
theorem Platform.reset_getElem (insts : Vector (Nat × Config) (n + 1)) (k : Fin (n + 1)) :
    (Platform.reset insts)[k] = ⟨insts[k].1, State.resetWith insts[k].2⟩ := by
  simp [Platform.reset]

end Sys2Proof.Machine
end

