-- ==== Sys2Proof/Laws/Run.lean ====
section
/-! SUPPORT. Runs of several commands: no command reads or writes the port, so a run over the port is a run of the
commands, one after the other. -/

namespace Sys2Proof.Machine

/-- The state with another port. -/
def State.setPort (s : State) (p : List HostEvent) : State := { s with port := p }

@[simp] theorem State.setPort_locked (s : State) (p : List HostEvent) : locked (s.setPort p) = locked s := rfl
@[simp] theorem State.setPort_phase (s : State) (p : List HostEvent) : (s.setPort p).phase = s.phase := rfl
@[simp] theorem State.setPort_dvalid (s : State) (p : List HostEvent) : (s.setPort p).dvalid = s.dvalid := rfl
@[simp] theorem State.setPort_len (s : State) (p : List HostEvent) : (s.setPort p).len = s.len := rfl
@[simp] theorem State.setPort_capEff (s : State) (p : List HostEvent) : (s.setPort p).capEff = s.capEff := rfl

theorem State.raised_setPort (s : State) (p : List HostEvent) (e : Exc) :
    (s.setPort p).raised e = (s.raised e).setPort p := by cases e <;> rfl

theorem padBytes_setPort (s : State) (p : List HostEvent) (a n : Nat) :
    padBytes (s.setPort p) a n = padBytes s a n := by
  induction n with
  | zero => rfl
  | succ n ih => simp only [padBytes, ih]; rfl

theorem blockAt_setPort (s : State) (p : List HostEvent) (i : Nat) : blockAt (s.setPort p) i = blockAt s i := by
  unfold blockAt
  rw [padBytes_setPort]
  rfl

theorem regValue_setPort (s : State) (p : List HostEvent) (reg : Reg) :
    regValue (s.setPort p) reg = regValue s reg := by cases reg <;> rfl

/-- A command does the same with any port and leaves the port alone. -/
theorem exec_setPort {i : Instr} {s t : State} (h : exec i s = .next t) (p : List HostEvent) :
    exec i (s.setPort p) = .next (t.setPort p) := by
  cases i with
  | init => obtain rfl := respond_eq_next_iff.1 h; rfl
  | push b =>
    simp only [exec] at h ⊢
    rcases execPush_cases b s with ⟨hc, e⟩ | ⟨h1, h2, h3, e⟩ | ⟨h1, h2, h3, e⟩ <;>
      (rw [e] at h; cases h)
    · rcases execPush_cases b (s.setPort p) with ⟨_, e'⟩ | ⟨h1, h2, _⟩ | ⟨h1, h2, _⟩
      · rw [e', State.raised_setPort]
      · exact absurd hc (by simp [show locked s = false from h1, show s.phase = .init from h2])
      · exact absurd hc (by simp [show locked s = false from h1, show s.phase = .init from h2])
    · show execPush b (s.setPort p) = _
      unfold execPush raise
      rw [if_neg (by simpa using h1), if_neg (by simpa using h2), if_pos (by simpa using h3), State.raised_setPort]
    · show execPush b (s.setPort p) = _
      unfold execPush
      rw [if_neg (by simpa using h1), if_neg (by simpa using h2), if_neg (by simpa using h3)]
      rfl
  | pad =>
    simp only [exec] at h ⊢
    rcases execPad_cases s with ⟨hc, e⟩ | ⟨h1, h2, e⟩ <;>
      (rw [e] at h; cases h)
    · rcases execPad_cases (s.setPort p) with ⟨_, e'⟩ | ⟨h1, h2, _⟩
      · rw [e', State.raised_setPort]
      · exact absurd hc (by simp [show locked s = false from h1, show s.phase = .init from h2])
    · unfold execPad
      rw [if_neg (by simpa using h1), if_neg (by simpa using h2)]
      rfl
  | compress =>
    simp only [exec] at h ⊢
    rcases execCompress_cases s with ⟨hc, e⟩ | ⟨h1, h2, ⟨_, e⟩ | ⟨f, _, _, e⟩ | ⟨c, b, h3, h4, e⟩⟩
    · rw [e] at h; cases h
      rcases execCompress_cases (s.setPort p) with ⟨_, e'⟩ | ⟨h1, h2, _⟩
      · rw [e', State.raised_setPort]
      · exact absurd hc (by simp [show locked s = false from h1, show s.phase = .absorbing from h2])
    · rw [e] at h; cases h
    · rw [e] at h; cases h
    · rw [e] at h; cases h
      have hb : blockAt (s.setPort p) (s.setPort p).blk.toNat = .ok b := by rw [blockAt_setPort]; exact h4
      unfold execCompress
      rw [if_neg (by simpa using h1), if_neg (by simpa using h2), hb, show (s.setPort p).h = some c from h3]
      rfl
  | finalize =>
    simp only [exec] at h ⊢
    rcases execFinalize_cases s with ⟨hc, e⟩ | ⟨h1, h2, h3, ⟨_, e⟩ | ⟨c, h4, e⟩⟩
    · rw [e] at h; cases h
      rcases execFinalize_cases (s.setPort p) with ⟨_, e'⟩ | ⟨h1, h2, h3, _⟩
      · rw [e', State.raised_setPort]
      · exact absurd hc (by
          simp [show locked s = false from h1, show s.phase = .finalized from h2, show s.dvalid = false from h3])
    · rw [e] at h; cases h
    · rw [e] at h; cases h
      unfold execFinalize
      rw [if_neg (by simpa using h1), if_neg (by simpa using h2), if_neg (by simpa using h3),
        show (s.setPort p).h = some c from h4]
      rfl
  | rdreg r =>
    simp only [exec, execRdreg] at h ⊢
    split at h
    · obtain rfl := raise_eq_next_iff.1 h
      simp [raise, State.raised_setPort]
    · rename_i reg _
      rw [regValue_setPort, show readIsMisuse (s.setPort p) reg = readIsMisuse s reg by cases reg <;> rfl]
      split at h
      · obtain rfl := raise_eq_next_iff.1 h
        rw [if_pos ‹_›, raise, State.raised_setPort]
      · rw [if_neg ‹_›]
        split at h
        · cases h
        · obtain rfl := respond_eq_next_iff.1 h
          rfl

/-- Commands run one after the other, stopping at the first fault or refusal. -/
def runAll : List Instr → State → Result
  | [], s => .next s
  | i :: is, s =>
    match exec i s with
    | .next t => runAll is t
    | .fault f => .fault f
    | .refused r => .refused r

theorem runAll_cons {i : Instr} {is : List Instr} {s t : State} (h : exec i s = .next t) :
    runAll (i :: is) s = runAll is t := by simp only [runAll, h]

theorem runAll_append {as bs : List Instr} {s t : State} (h : runAll as s = .next t) :
    runAll (as ++ bs) s = runAll bs t := by
  induction as generalizing s with
  | nil => cases h; rfl
  | cons a as ih =>
    simp only [runAll, List.cons_append] at h ⊢
    split at h
    · exact ih h
    · cases h
    · cases h

/-- Steps over a port that holds the words of commands are the commands, one after the other. -/
theorem stepMany_of_runAll (hdec : ∀ i, decode (encode i) = .command i) {is : List Instr} {s t : State}
    (h : runAll is s = .next t) :
    stepMany is.length (s.setPort (is.map fun i => .command (encode i))) = .next (t.setPort []) := by
  induction is generalizing s with
  | nil => cases h; rfl
  | cons i is ih =>
    simp only [runAll] at h
    split at h
    · rename_i u hu
      have hstep : step (s.setPort ((i :: is).map fun i => .command (encode i))) =
          exec i (s.setPort (is.map fun i => .command (encode i))) := by
        show (match decode (encode i) with | .command i => _ | .illegal _ => _) = _
        rw [hdec]
        rfl
      simp only [List.length_cons, stepMany, hstep, exec_setPort hu]
      exact ih h
    · cases h
    · cases h

end Sys2Proof.Machine
end

