-- ==== Sys2Proof/Tests/Slice0.lean ====
section
/-! SUPPORT. Small tests, with expected results from spec/95_test_vectors.md and the examples of the rules, and one
witness for the hypotheses of each statement that has some. -/

namespace Sys2Proof.Tests

open Sys2Proof Sys2Proof.Machine

/-! ## Well-formed words: an ill-formed word for each check -/

theorem smoke_opcode_zero : opAssigned 0x00000000 = false ∧ wordWellFormed 0x00000000 = false := by decide
theorem smoke_opcode_seven : opAssigned 0x00000007 = false ∧ wordWellFormed 0x00000007 = false := by decide
theorem smoke_reserved_low : reservedClear 0x00000012 = false ∧ wordWellFormed 0x00000012 = false := by decide
theorem smoke_reserved_high : reservedClear 0x80000006 = false ∧ wordWellFormed 0x80000006 = false := by decide
theorem smoke_operand_of_format_n : operandClear 0x00000101 = false ∧ wordWellFormed 0x00000101 = false := by decide
theorem smoke_well_formed : wordWellFormed 0x0000FF02 = true ∧ wordWellFormed 0x00000005 = true := by decide

/-! ## Decoding: words written out from R75, and V49 -/

theorem test_decode_init : decode 0b00000000000000000000000000000001#32 = .command .init := by decide
theorem test_decode_push : decode 0b00000000000000000110001100000010#32 = .command (.push 0x63) := by decide
theorem test_decode_pad : decode 0b00000000000000000000000000000011#32 = .command .pad := by decide
theorem test_decode_compress : decode 0b00000000000000000000000000000100#32 = .command .compress := by decide
theorem test_decode_finalize : decode 0b00000000000000000000000000000101#32 = .command .finalize := by decide
theorem test_decode_rdreg : decode 0b00000000000000000011111100000110#32 = .command (.rdreg 0x3F) := by decide
/-- V49: the illegal words, by the clause of R77 they fall under. -/
theorem test_decode_illegal :
    decode 0x00000000 = .illegal .unassignedOpcode ∧ decode 0x0000000F = .illegal .unassignedOpcode ∧
    decode 0x000000F3 = .illegal .bitsSetInFormatN ∧ decode 0x00008004 = .illegal .bitsSetInFormatN ∧
    decode 0x80000006 = .illegal .reservedSetInFormatI := by decide
theorem test_table_word_is_cut_to_its_bits : decodeTableWord 8 0x12302 = some (.push 0) := by decide

/-! ## Assembler notation (R79), with the words of R74 -/

theorem test_asm_push : (asmLine "PUSH 'a' ; a byte".toList).word = some 0x00006102 := by decide +kernel
theorem test_asm_names : (asmLine "RDREG DIGEST31".toList).word = some 0x00003F06 ∧
    (asmLine "RDREG STATUS".toList).word = some 0x00000806 := by decide +kernel
theorem test_asm_out_of_range : asmLine "PUSH 256".toList = .error := by decide +kernel
/-- V20 to V26, the column "commands issued by HASH". -/
theorem test_hash_command_count : (hashCommands (List.replicate 119 0x61)).length = 156 := by decide +kernel

/-! ## Functions: V10 to V13, V40 to V43, V1, V2, V44, V46 -/

theorem test_rotr : rotr 0x12345678 8 = 0x78123456 ∧ rotr 0x12345678 0 = 0x12345678 ∧
    rotr 0x12345678 31 = 0x2468acf0 := by decide
theorem test_schedule_sigmas : sig0 0x12345678 = 0xe7fce6ee ∧ sig1 0x12345678 = 0xa1f78649 := by decide
theorem test_round_sigmas : ep0 0x12345678 = 0x66146474 ∧ ep1 0x12345678 = 0x3561abda := by decide
theorem test_ch_maj : ch 0xf0f0f0f0 0xff00ff00 0x0f0f0f0f = 0xff0fff0f ∧
    maj 0xf0f0f0f0 0xff00ff00 0x0f0f0f0f = 0xff00ff00 := by decide

/-- The bytes of "abc" (R79: ASCII). -/
def abc : List Byte := [0x61, 0x62, 0x63]

/-- V16: the block of "abc". -/
def abcBlock : Block := blockOf (padded abc) 0

theorem test_abc_block : abcBlock[0] = 0x61 ∧ abcBlock[3] = 0x80 ∧ abcBlock[4] = 0x00 ∧ abcBlock[63] = 0x18 := by
  decide +kernel
theorem test_schedule_loaded : (sched abcBlock)[0] = 0x61626380 ∧ (sched abcBlock)[15] = 0x00000018 := by
  decide +kernel
theorem test_schedule_expanded : (sched abcBlock)[17] = 0x000f0000 ∧ (sched abcBlock)[63] = 0x12b1edeb := by
  decide +kernel
/-- V41: round 0. -/
theorem test_first_round : roundStep (loadWorking iv) (kRom 0) 0x61626380 =
    ⟨0x5d6aebcd, 0x6a09e667, 0xbb67ae85, 0x3c6ef372, 0xfa2a4622, 0x510e527f, 0x9b05688c, 0x1f83d9ab⟩ := by decide
/-- V43: H after the block of "abc". -/
theorem test_compress_function : compress iv abcBlock =
    #v[0xba7816bf, 0x8f01cfea, 0x414140de, 0x5dae2223, 0xb00361a3, 0x96177a9c, 0xb410ff61, 0xf20015ad] := by
  decide +kernel
/-- V46, first row. -/
theorem test_serializer :
    ser #v[0x00000001, 0x80000000, 0x12345678, 0xffffffff, 0x00000000, 0x01020304, 0xa0b0c0d0, 0x000000ff] =
    #v[0x00, 0x00, 0x00, 0x01, 0x80, 0x00, 0x00, 0x00, 0x12, 0x34, 0x56, 0x78, 0xff, 0xff, 0xff, 0xff,
      0x00, 0x00, 0x00, 0x00, 0x01, 0x02, 0x03, 0x04, 0xa0, 0xb0, 0xc0, 0xd0, 0x00, 0x00, 0x00, 0xff] := by
  decide +kernel
/-- V1, in the rendering of R206. -/
theorem test_hash_empty : renderHex (hashMessage []) =
    "e3b0c44298fc1c149afbf4c8996fb92427ae41e4649b934ca495991b7852b855".toList := by decide +kernel
/-- V27: the two-block message. -/
theorem test_hash_two_blocks :
    renderHex (hashMessage ("abcdbcdecdefdefgefghfghighijhijkijkljklmklmnlmnomnopnopq".toList.map
      fun c => BitVec.ofNat 8 c.toNat)) =
    "248d6a61d20638b8e5c026930c3e6039a33ce45964ff2167f6ecedd419db06c1".toList := by decide +kernel

/-! ## Small states, one per phase -/

/-- After `INIT` from reset. -/
def sInit : State := State.reset.start
/-- After `INIT; PUSH 'a'; PUSH 'b'; PUSH 'c'`. -/
def sAbc : State := ((sInit.append 0x61).append 0x62).append 0x63
/-- After `INIT; PAD`. -/
def sAbsorbing : State := sInit.startPadding.frame
/-- FINALIZED with DVALID = 0 and IV in place of the digest's words. -/
def sFinalized : State := sAbsorbing.absorb iv
/-- FINALIZED with DVALID = 1. -/
def sDone : State := sFinalized.serialize iv
/-- IDLE, locked by E_MISUSE. -/
def sLocked : State := State.reset.raised .misuseError
/-- INIT, with a buffer of no bytes. -/
def sFull : State := (State.resetWith ⟨0⟩).start
/-- A state with one word on its port. -/
def withWord (s : State) (w : Word) : State := { s with port := [.command w] }

theorem sInit_inv : sInit.Inv := by
  constructor <;> first | decide | (intro e; cases e <;> decide)
theorem sAbc_inv : sAbc.Inv := by
  constructor <;> first | decide | (intro e; cases e <;> decide)
theorem sAbsorbing_inv : sAbsorbing.Inv := by
  constructor <;> first | decide | (intro e; cases e <;> decide)
theorem sFinalized_inv : sFinalized.Inv := by
  constructor <;> first | decide | (intro e; cases e <;> decide)
theorem sDone_inv : sDone.Inv := by
  constructor <;> first | decide | (intro e; cases e <;> decide)
theorem sLocked_inv : sLocked.Inv := by
  constructor <;> first | decide | (intro e; cases e <;> decide)

/-- One observation of a command's next state. -/
def after {α : Type} (r : Result) (f : State → α) : Option α :=
  match r with
  | .next t => some (f t)
  | _ => none

/-! ## Commands: V3, V17, V18, V30, V45, V47, V48, and the examples of the rules -/

/-- V30, row "IDLE, locked": INIT unlocks; V3: IV. -/
theorem test_init_unlocks : after (exec .init sLocked) (fun t => (statusWord t, t.h.map (·[3]))) =
    some (0x00000001, some 0xa54ff53a) := by decide +kernel
/-- R181, corner case: INIT after FINALIZED discards the digest. -/
theorem test_init_forgets : after (exec .init sDone) (fun t => (t.digest, t.nblk, statusWord t)) =
    some (none, 0, 0x00000001) := by decide +kernel
/-- V17: `PUSH 0x80` is ordinary data. -/
theorem test_push_terminator_byte : after (exec (.push 0x80) sInit) (fun t => (t.lcnt, Memory.read t.msg 0)) =
    some (8, some 0x80) := by decide +kernel
/-- V17: a full buffer, LCNT unchanged. -/
theorem test_push_full : after (exec (.push 0x63) sFull) (fun t => (statusWord t, t.lcnt, t.responses)) =
    some (0x00000021, 0, [⟨3, 0⟩]) := by decide +kernel
/-- R105, example. -/
theorem test_pad_abc : after (exec .pad sAbc) (fun t => (t.nblk, t.blk, statusWord t)) =
    some (1, 0, 0x00000002) := by decide +kernel
/-- V15: 56 bytes take two blocks, 55 take one. -/
theorem test_pad_boundary :
    after (exec .pad { sInit with lcnt := 8 * 56 }) (·.nblk) = some 2 ∧
    after (exec .pad { sInit with lcnt := 8 * 55 }) (·.nblk) = some 1 := by decide +kernel
/-- R160, example: the only block of "abc". -/
theorem test_compress_abc :
    after (exec .compress sAbc.startPadding.frame) (fun t => (t.h, t.blk, statusWord t)) =
    some (some #v[0xba7816bf, 0x8f01cfea, 0x414140de, 0x5dae2223, 0xb00361a3, 0x96177a9c, 0xb410ff61, 0xf20015ad],
      1, 0x00000003) := by decide +kernel
/-- V45: COMPRESS before PAD. -/
theorem test_compress_in_init : after (exec .compress sInit) (fun t => (statusWord t, t.responses)) =
    some (0x00000011, [⟨2, 0⟩]) := by decide +kernel
/-- V48: the first FINALIZE. -/
theorem test_finalize : after (exec .finalize sFinalized) (fun t => (statusWord t, t.digest.map (·[0]))) =
    some (0x0000000b, some 0x6a) := by decide +kernel
/-- V48: the second FINALIZE keeps the digest. -/
theorem test_finalize_twice : after (exec .finalize sDone) (fun t => (statusWord t, t.digest.map (·[31]))) =
    some (0x0000001b, some 0x19) := by decide +kernel
/-- V46: `RDREG 0x24` of the first row's digest. -/
theorem test_rdreg_digest :
    after (exec (.rdreg 0x24) { sDone with digest := some (ser #v[1, 0x80000000, 0, 0, 0, 0, 0, 0]) })
      (·.responses) = some [⟨0, 0x00000080⟩] := by decide +kernel
/-- V47: an unassigned number. -/
theorem test_rdreg_unassigned : after (exec (.rdreg 0x1F) sAbsorbing) (fun t => (statusWord t, t.responses)) =
    some (0x00000042, [⟨1, 0⟩]) := by decide +kernel
/-- R250: a reset event in the middle of a computation. -/
theorem test_reset_event : after (step { sAbsorbing with port := [.reset] }) (fun t => (t.phase, t.h, t.nblk)) =
    some (.idle, none, 0) := by decide +kernel
/-- A word placed for the next step is the command that step runs, from reset on. -/
theorem test_fetch_word : step (State.reset.withFetchWord 32 0x00000001) = exec .init State.reset := rfl
/-- R64: a second host. -/
theorem test_second_host : (match Platform.issue (n := 0) #v[⟨7, State.reset⟩] 8 0 0x00000001 with
    | .refused .secondHost => true
    | _ => false) = true := by decide +kernel

/-! ## Witnesses: states and operands that meet the hypotheses of the statements -/

theorem witness_EncodeOfDecodeIsTheWord : decode 0x00006102 = .command (.push 0x61) := by decide
theorem witness_IllegalWordsAreThoseOfTheThreeClauses :
    decode 0x00000000 = .illegal .unassignedOpcode ∧ decode 0x00000007 = .illegal .unassignedOpcode ∧
    decode 0x00000011 = .illegal .bitsSetInFormatN ∧ decode 0x80000005 = .illegal .bitsSetInFormatN ∧
    decode 0x00000012 = .illegal .reservedSetInFormatI ∧ decode 0x00010006 = .illegal .reservedSetInFormatI := by
  decide
theorem witness_WordSelectsExactlyItsCommandsRow :
    Instr.row .pad ∈ opcodeMap ∧ (0x00000003 : Word) &&& (Instr.row .pad).maskBits = (Instr.row .pad).matchBits := by
  decide
theorem witness_StepRunsTheDecodedCommand :
    (withWord sInit 0x00006102).port = .command 0x00006102 :: [] ∧
    decode 0x00006102 = .command (.push 0x61) := by decide
theorem witness_StepOnOtherEventsAndOnIdlePort :
    ((withWord sInit 0).port = .command 0 :: [] ∧ decode 0 = .illegal .unassignedOpcode) ∧
    ({ sLocked with port := [.reset] } : State).port = .reset :: [] ∧
    State.reset.port = [] := by decide
theorem witness_ResetEventSetsTheResetValues :
    ({ sAbsorbing with port := [.reset] } : State).port = .reset :: [] := by decide
theorem witness_ResetStateHoldsTheResetValues : ∃ s, s = State.reset ∧ ∃ c, s = State.resetWith c :=
  ⟨State.reset, rfl, Config.default, rfl⟩
theorem witness_PushAppendsTheByteOrRaises :
    locked sLocked = true ∧
    (locked sAbsorbing = false ∧ sAbsorbing.phase ≠ .init) ∧
    (locked sFull = false ∧ sFull.phase = .init ∧ min sFull.cfg.msgCap (2 ^ 61 - 1) ≤ sFull.lcnt.toNat / 8) ∧
    (locked sInit = false ∧ sInit.phase = .init ∧ sInit.lcnt.toNat / 8 < min sInit.cfg.msgCap (2 ^ 61 - 1)) := by decide +kernel
theorem witness_PadFramesTheMessageOrRaises :
    locked sLocked = true ∧ (locked sFinalized = false ∧ sFinalized.phase ≠ .init) ∧
    (locked sInit = false ∧ sInit.phase = .init) := by decide
theorem witness_CompressAbsorbsTheNextBlockOrRaises :
    locked sLocked = true ∧ (locked sInit = false ∧ sInit.phase ≠ .absorbing) ∧
    (sAbsorbing.Inv ∧ locked sAbsorbing = false ∧ sAbsorbing.phase = .absorbing) :=
  ⟨by decide, by decide, sAbsorbing_inv, by decide, by decide⟩
theorem witness_FinalizeSerializesTheDigestOrRaises :
    locked sLocked = true ∧ (locked sAbsorbing = false ∧ sAbsorbing.phase ≠ .finalized) ∧
    (locked sDone = false ∧ sDone.phase = .finalized ∧ sDone.dvalid = true) ∧
    (sFinalized.Inv ∧ locked sFinalized = false ∧ sFinalized.phase = .finalized ∧ sFinalized.dvalid = false) :=
  ⟨by decide, by decide, by decide, sFinalized_inv, by decide, by decide, by decide⟩
/-- Every clause at the ends of its range of numbers: 0x0F, 0x1F, 0x40, 0xFF unassigned; 0x00, 0x07 in IDLE; 0x20,
0x3F with DVALID = 0; words 0 and 7 outside IDLE; bytes 0 and 31 with DVALID = 1. -/
theorem witness_RdregReturnsTheRegisterOrRaises :
    ((0x0F ≤ (0x0F#8).toNat ∧ (0x0F#8).toNat ≤ 0x1F) ∧ (0x0F ≤ (0x1F#8).toNat ∧ (0x1F#8).toNat ≤ 0x1F) ∧
      0x40 ≤ (0x40#8).toNat ∧ 0x40 ≤ (0xFF#8).toNat) ∧
    ((0x00#8).toNat ≤ 0x07 ∧ (0x07#8).toNat ≤ 0x07 ∧ State.reset.phase = .idle) ∧
    ((0x20 ≤ (0x20#8).toNat ∧ (0x20#8).toNat ≤ 0x3F) ∧ (0x20 ≤ (0x3F#8).toNat ∧ (0x3F#8).toNat ≤ 0x3F) ∧
      sFinalized.dvalid = false) ∧
    (0 < 8 ∧ 7 < 8 ∧ sInit.Inv ∧ sInit.phase ≠ .idle) ∧
    (0 < 32 ∧ 31 < 32 ∧ sDone.Inv ∧ sDone.dvalid = true) :=
  ⟨by decide, by decide, by decide, ⟨by decide, by decide, sInit_inv, by decide⟩,
    by decide, by decide, sDone_inv, by decide⟩
theorem witness_InitFrame : ∃ t, exec .init sLocked = .next t := ⟨_, rfl⟩
theorem witness_PushFrame : ∃ t, exec (.push 0x61) sInit = .next t ∧ 1 ≠ sInit.len := ⟨_, rfl, by decide⟩
theorem witness_PadFrame : ∃ t, exec .pad sInit = .next t := ⟨_, rfl⟩
theorem witness_CompressFrame : ∃ t, exec .compress sInit = .next t := ⟨_, rfl⟩
theorem witness_FinalizeFrame : ∃ t, exec .finalize sFinalized = .next t := ⟨_, rfl⟩
theorem witness_RdregFrame : ∃ t, exec (.rdreg 0x08) sInit = .next t := ⟨_, rfl⟩
theorem witness_EveryCommandReturnsOneResponse : ∃ t, runWord 0x00000806 sInit = .next t := ⟨_, rfl⟩
theorem witness_ExceptionsArePrecise : ∃ t, runWord 0x00000004 sInit = .next t ∧
    t.responses = sInit.responses ++ [⟨2, 0⟩] ∧ (⟨2, 0⟩ : Response).rcode ≠ 0 := ⟨_, rfl, rfl, by decide⟩
theorem witness_CommandsReportTheFirstExceptionDue : sLocked.Inv := sLocked_inv
theorem witness_LockRefusesAllButInitAndRdreg : locked sLocked = true ∧ (0x00#8) ≠ 0x08 ∧
    ∃ t, exec (.rdreg 0x00) sLocked = .next t := ⟨by decide, by decide, _, rfl⟩
theorem witness_FlagsAreStickyAndSetByExceptionsOnly :
    (∃ t, runWord 0x00000003 sLocked = .next t ∧ t.responses = sLocked.responses ++ [⟨2, 0⟩] ∧
      decode 0x00000003 ≠ .command .init ∧ sLocked.flag .misuseError = true) ∧
    ∃ t, runWord 0x00000001 sLocked = .next t ∧ t.responses = sLocked.responses ++ [⟨0, 0⟩] ∧
      decode 0x00000001 = .command .init :=
  ⟨⟨_, rfl, rfl, by decide, by decide⟩, _, rfl, rfl, by decide⟩
theorem witness_FaultLogRecordsEveryException :
    (∃ t, runWord 0x00000001 sInit = .next t ∧ t.responses = sInit.responses ++ [⟨0, 0⟩]) ∧
    (∃ t, runWord 0x00000000 sInit = .next t ∧ t.responses = sInit.responses ++ [⟨1, 0⟩]) ∧
    (∃ t, runWord 0x00000004 sInit = .next t ∧ t.responses = sInit.responses ++ [⟨2, 0⟩]) ∧
    ∃ t, runWord 0x00006102 sFull = .next t ∧ t.responses = sFull.responses ++ [⟨3, 0⟩] :=
  ⟨⟨_, rfl, rfl⟩, ⟨_, rfl, rfl⟩, ⟨_, rfl, rfl⟩, _, rfl, rfl⟩
theorem witness_StatusHoldsItsFields : 7 ≤ 31 ∧ sDone.Inv := ⟨by decide, sDone_inv⟩
theorem witness_DriverTransitions : ∃ t, sInit.Inv ∧ exec .pad sInit = .next t := ⟨_, sInit_inv, rfl⟩
theorem witness_OnlyInitAndCompressWriteTheChain : ∃ t, runWord 0x00000003 sInit = .next t ∧
    decode 0x00000003 ≠ .command .init ∧ decode 0x00000003 ≠ .command .compress :=
  ⟨_, rfl, by decide, by decide⟩
theorem witness_MessageIsFixedAfterPad : ∃ t, runWord 0x00006102 sAbsorbing = .next t ∧
    sAbsorbing.phase ≠ .init ∧ decode 0x00006102 ≠ .command .init := ⟨_, rfl, by decide, by decide⟩
theorem witness_AcceptedPushCountsExactly :
    sAbc.Inv ∧ locked sAbc = false ∧ sAbc.phase = .init ∧ sAbc.len < sAbc.capEff :=
  ⟨sAbc_inv, by decide, by decide, by decide +kernel⟩
theorem witness_MessageBufferStaysCanonical : ∃ t, Memory.wf (withWord sAbc 0x00006402).msg ∧
    step (withWord sAbc 0x00006402) = .next t := ⟨_, by decide, rfl⟩
theorem witness_StepKeepsTheInvariant : ∃ t, sInit.Inv ∧ step sInit = .next t := ⟨_, sInit_inv, rfl⟩
theorem witness_InvariantStatesNeverStop : sAbsorbing.Inv := sAbsorbing_inv
theorem witness_ReachableStatesMeetTheSevenItems : Reachable (State.reset.enqueue (.command 0x00000001)) :=
  .issue _ _ (.reset _)
theorem witness_DigestIsKeptUntilInit : ∃ t, sDone.Inv ∧ sDone.dvalid = true ∧
    runWord 0x00000005 sDone = .next t ∧ decode 0x00000005 ≠ .command .init :=
  ⟨_, sDone_inv, by decide, rfl, by decide⟩
theorem witness_InitForgetsAndCommandsAreDeterministic :
    sInit.cfg = sDone.cfg ∧ sInit.SameHardware (sInit.reply ⟨0, 0⟩) ∧ ∃ t, runWord 0x00000003 sInit = .next t :=
  ⟨by decide, by constructor <;> decide, _, rfl⟩
/-- One position for each clause: message, terminator, zero fill at both ends, length field at both ends. -/
theorem witness_FramerPlacesEveryByte :
    ∃ s : State, s.Inv ∧ s.phase = .absorbing ∧
      (2 < s.len ∧ 3 = s.len ∧ s.len < 4 ∧ 55 < 64 * s.nblk.toNat - 8 ∧
        56 = 64 * s.nblk.toNat - 8 + 0 ∧ 63 = 64 * s.nblk.toNat - 8 + 7 ∧ 63 < 64 * s.nblk.toNat) := by
  refine ⟨sAbc.startPadding.frame, ?_, by decide, by decide⟩
  constructor <;> first | decide | (intro e; cases e <;> decide)
theorem witness_FramerStopsOutsideItsRange :
    64 * sAbsorbing.nblk.toNat ≤ 64 ∧ sAbsorbing.nblk.toNat ≤ 1 ∧
    (sInit.phase ≠ .absorbing ∧ sInit.phase ≠ .finalized) := by decide
theorem witness_FramerIsThePaddingInClosedForm :
    (sAbsorbing.Inv ∧ sAbsorbing.phase = .absorbing) ∧ 63 < 64 * sAbsorbing.nblk.toNat ∧
    0 < sAbsorbing.nblk.toNat ∧ (sFinalized.Inv ∧ sFinalized.phase = .finalized) :=
  ⟨⟨sAbsorbing_inv, by decide⟩, by decide, by decide, sFinalized_inv, by decide⟩
theorem witness_PaddingPostconditions :
    abc.length ≤ 2 ^ 61 - 1 ∧ (List.replicate 55 (0x61 : Byte)).length % 64 = 55 ∧
    (List.replicate 56 (0x61 : Byte)).length % 64 = 56 := by decide +kernel
theorem witness_RotationAndShiftBits : (31 ≤ 31 ∧ 31 ≤ 31) ∧ (0 ≤ 31 ∧ 31 ≤ 31) := by decide
theorem witness_ChooseAndMajorityBits : 31 < 32 := by decide
theorem witness_ScheduleLoadsBigEndianWords : 0 < 16 ∧ 15 < 16 := by decide
theorem witness_ScheduleFollowsTheRecurrence : (16 ≤ 16 ∧ 16 < 64) ∧ (16 ≤ 63 ∧ 63 < 64) := by decide
theorem witness_SixteenWordExpanderGivesCompress : 0 < 64 ∧ 63 < 64 := by decide
theorem witness_SerializerIsBigEndian : (0 < 8 ∧ 0 < 4) ∧ (7 < 8 ∧ 3 < 4) := by decide
theorem witness_HashCommandsComputeTheHash : sLocked.port = [] ∧ abc.length ≤ sLocked.capEff := by decide +kernel
theorem witness_HashOfATooLongMessageGivesNoDigest :
    (State.resetWith ⟨2⟩).port = [] ∧ (State.resetWith ⟨2⟩).capEff < abc.length := by decide +kernel
/-- Two instances: one about to run PAD, one about to run INIT, driven by hosts 7 and 8. -/
def twoChips : Platform 1 := #v[⟨7, withWord sInit 0x00000003⟩, ⟨8, withWord sDone 0x00000001⟩]
theorem witness_InstancesAreIsolated : ∃ q, twoChips.stepAt 0 = .next q ∧ (1 : Fin 2) ≠ 0 := ⟨_, rfl, by decide⟩
theorem witness_StepsOfDifferentInstancesCommute :
    ∃ q r, (0 : Fin 2) ≠ 1 ∧ twoChips.stepAt 0 = .next q ∧ Platform.stepAt q 1 = .next r :=
  ⟨_, _, by decide, rfl, rfl⟩
theorem witness_SecondHostIsRefused : 8 ≠ twoChips[(0 : Fin 2)].host ∧ 7 = twoChips[(0 : Fin 2)].host := by decide

end Sys2Proof.Tests
end

namespace Sys2Proof.Machine

/-- R62: the oldest event is taken off the port and handled. -/
theorem step_of_port_cons {s : State} {e : HostEvent} {rest : List HostEvent} (h : s.port = e :: rest) :
    step s = takeEvent e { s with port := rest } := by
  simp only [step, servePort, h]

/-- R76: a word that decodes to a command runs as that command. -/
theorem runWord_of_decode_command {w : Word} {i : Instr} (h : decode w = .command i) (s : State) :
    runWord w s = exec i s := by
  simp only [runWord, h]

/-- Settles O7: the port hands the oldest word to `runWord`, which executes the command it decodes to. -/
theorem stepRunsTheDecodedCommand : Obligations.StepRunsTheDecodedCommand := by
  intro s w rest i hport hdec
  calc step s = runWord w { s with port := rest } := step_of_port_cons hport
    _ = exec i { s with port := rest } := runWord_of_decode_command hdec _

end Sys2Proof.Machine

namespace Sys2Proof.Machine

/-! The error flags under the named updates, and what one command word can do. -/

theorem State.raised_flag (s : State) (e e' : Exc) : (s.raised e).flag e' = (s.flag e' || e == e') := by
  cases e' <;> simp [State.flag]

@[simp] theorem State.reply_flag (s : State) (r : Response) (e : Exc) : (s.reply r).flag e = s.flag e := rfl

@[simp] theorem State.start_flag (s : State) (e : Exc) : s.start.flag e = false := by cases e <;> rfl

@[simp] theorem State.resetEvent_flag (s : State) (e : Exc) : s.resetEvent.flag e = false := by cases e <;> rfl

/-- A command that answers a next state raises one exception, is INIT, or responds with code 0 and leaves the flags
and the fault log alone. -/
theorem exec_response_cases {i : Instr} {s t : State} (h : exec i s = .next t) :
    (∃ e, t = s.raised e ∧ i ≠ .init) ∨
    (i = .init ∧ t = s.start.reply ⟨0, 0⟩) ∨
    (∃ d, i ≠ .init ∧ t.responses = s.responses ++ [⟨0, d⟩] ∧ t.flag = s.flag ∧
      t.faultLog = s.faultLog) := by
  rcases exec_next_cases h with raised | init | ⟨b, rfl, -, -, -, rfl⟩ | ⟨rfl, -, -, rfl⟩ |
    ⟨c, b, rfl, -, -, -, -, rfl⟩ | ⟨c, rfl, -, -, -, -, rfl⟩ | ⟨r, reg, d, rfl, -, -, -, rfl⟩
  · exact .inl raised
  · exact .inr (.inl init)
  all_goals exact .inr (.inr ⟨_, by simp, rfl, rfl, rfl⟩)

/-- R76, R222: a word runs as the command it decodes to, or raises IllegalCommand. -/
theorem runWord_next_cases {w : Word} {s t : State} (h : runWord w s = .next t) :
    (∃ i, decode w = .command i ∧ exec i s = .next t) ∨
    (∃ why, decode w = .illegal why ∧ t = s.raised .illegalCommand) := by
  unfold runWord at h
  split at h
  · exact .inl ⟨_, ‹_›, h⟩
  · exact .inr ⟨_, ‹_›, raise_eq_next_iff.1 h⟩

/-- `exec_response_cases` over every word, an Illegal one raising IllegalCommand. -/
theorem runWord_response_cases {w : Word} {s t : State} (h : runWord w s = .next t) :
    (∃ e, t = s.raised e ∧ decode w ≠ .command .init) ∨
    (decode w = .command .init ∧ t = s.start.reply ⟨0, 0⟩) ∨
    (∃ d, decode w ≠ .command .init ∧ t.responses = s.responses ++ [⟨0, d⟩] ∧ t.flag = s.flag ∧
      t.faultLog = s.faultLog) := by
  rcases runWord_next_cases h with ⟨i, hdec, hexec⟩ | ⟨why, hdec, rfl⟩
  · simpa [hdec] using exec_response_cases hexec
  · exact .inl ⟨_, rfl, by simp [hdec]⟩

/-! The length counter and the block count in numbers. -/

/-- R28: with LCNT a multiple of 8, LCNT is 8 x LEN. -/
theorem State.Inv.lcnt_eq {s : State} (hs : s.Inv) : s.lcnt.toNat = 8 * s.len := by
  have := hs.lcntMultiple
  rw [State.len_eq_div]
  omega

/-- R104: below CAP_EFF the counter has room for 8 more. -/
theorem State.Inv.append_lcnt {s : State} (hs : s.Inv) (hroom : s.len < s.capEff) (b : Byte) :
    (s.append b).lcnt.toNat = s.lcnt.toNat + 8 := by
  have hcap := s.capEff_le
  have hlcnt := hs.lcnt_eq
  rw [State.append_lcnt]
  bv_omega

theorem State.Inv.append_len {s : State} (hs : s.Inv) (hroom : s.len < s.capEff) (b : Byte) :
    (s.append b).len = s.len + 1 := by
  have hlcnt := hs.lcnt_eq
  rw [State.len_eq_div, hs.append_lcnt hroom b]
  omega

theorem State.startPadding_frame_nblk_toNat (s : State) : s.startPadding.frame.nblk.toNat = blockCount s.len := by
  have := s.len_lt
  simp only [State.frame_nblk, State.startPadding_len, blockCount, BitVec.toNat_ofNat]
  omega

/-! Every named update of the state keeps the invariant. -/

theorem State.Inv.reply {s : State} (hs : s.Inv) (r : Response) : (s.reply r).Inv := { hs with }

theorem State.Inv.setPort {s : State} (hs : s.Inv) (p : List HostEvent) : (s.setPort p).Inv := { hs with }

theorem State.Inv.enqueue {s : State} (hs : s.Inv) (e : HostEvent) : (s.enqueue e).Inv := { hs with }

theorem State.Inv.raised {s : State} (hs : s.Inv) (e : Exc) : (s.raised e).Inv := by
  have logged : ∀ e', (s.raised e).flag e' = true → e' ∈ (s.raised e).faultLog := by
    intro e' hf
    rw [State.raised_flag, Bool.or_eq_true, beq_iff_eq] at hf
    rw [State.raised_faultLog, List.mem_append, List.mem_singleton]
    exact hf.imp (hs.flagsLogged e') Eq.symm
  cases e <;> exact { hs with flagsLogged := logged }

/-- INIT leads into the invariant from any state (R181). -/
theorem State.start_inv (s : State) : s.start.Inv := by
  constructor <;> simp [State.len]

/-- A reset leads into the invariant from any state (R250). -/
theorem State.resetEvent_inv (s : State) : s.resetEvent.Inv := by
  constructor <;> simp [State.len]

theorem State.resetWith_inv (c : Config) : (State.resetWith c).Inv := (State.resetWith c).resetEvent_inv

/-- Before FINALIZED there is no valid digest. -/
theorem State.Inv.dvalid_eq_false {s : State} (hs : s.Inv) (hp : s.phase ≠ .finalized) : s.dvalid = false := by
  by_contra hd
  exact hp (hs.digestPhase (by simpa using hd))

theorem State.Inv.append {s : State} (hs : s.Inv) (hp : s.phase = .init) (hroom : s.len < s.capEff) (b : Byte) :
    (s.append b).Inv :=
  { hs with
    lcntMultiple := by rw [hs.append_lcnt hroom b, Nat.add_mod_right]; exact hs.lcntMultiple
    lenBound := by rw [hs.append_len hroom b]; exact hroom
    absorbing := by simp [hp]
    finalizedCount := by simp [hp]
    idleEmpty := by simp [hp]
    messageCells := by rw [hs.append_len hroom b]; exact Memory.cells_write hs.messageCells b }

theorem State.Inv.frame {s : State} (hs : s.Inv) (hp : s.phase = .init) : s.startPadding.frame.Inv :=
  { hs with
    notPadding := by simp
    countersZero := by simp
    absorbing := fun _ => by
      rw [s.startPadding_frame_nblk_toNat]
      exact ⟨Nat.succ_pos _, rfl⟩
    finalized := by simp
    finalizedCount := by simp
    digestPhase := by simp [hs.dvalid_eq_false (by simp [hp])]
    idleEmpty := by simp
    chainPresent := by simp [hs.chainPresent, hp] }

/-- R160: COMPRESS of a block that is not the last stays in ABSORBING, and the last one ends in FINALIZED. -/
theorem State.absorb_phase_cases {s : State} (hlt : s.blk.toNat < s.nblk.toNat) (hp : s.phase = .absorbing)
    (c : Chain) :
    ((s.absorb c).phase = .absorbing ∧ (s.absorb c).blk.toNat < s.nblk.toNat) ∨
    ((s.absorb c).phase = .finalized ∧ (s.absorb c).blk = s.nblk) := by
  rw [State.absorb_phase, State.absorb_blk]
  split
  · exact .inr ⟨rfl, ‹_›⟩
  · exact .inl ⟨hp, by bv_omega⟩

theorem State.Inv.absorb {s : State} (hs : s.Inv) (hp : s.phase = .absorbing) (c : Chain) : (s.absorb c).Inv := by
  obtain ⟨hlt, hcount⟩ := hs.absorbing hp
  have hd := hs.dvalid_eq_false (by simp [hp])
  have hcases := State.absorb_phase_cases hlt hp c
  have hidle : (s.absorb c).phase ≠ .idle := by
    rcases hcases with ⟨h, -⟩ | ⟨h, -⟩ <;> rw [h] <;> decide
  have hinit : (s.absorb c).phase ≠ .init := by
    rcases hcases with ⟨h, -⟩ | ⟨h, -⟩ <;> rw [h] <;> decide
  exact { hs with
    notPadding := by rcases hcases with ⟨h, -⟩ | ⟨h, -⟩ <;> rw [h] <;> decide
    countersZero := fun h => (h.elim hidle hinit).elim
    absorbing := fun h => by
      rcases hcases with ⟨-, hleft⟩ | ⟨h', -⟩
      · exact ⟨hleft, hcount⟩
      · cases h.symm.trans h'
    finalized := fun h => by
      rcases hcases with ⟨h', -⟩ | ⟨-, hlast⟩
      · cases h.symm.trans h'
      · exact ⟨hlast, Nat.one_le_of_lt hlt⟩
    finalizedCount := fun _ => hcount
    digestPhase := by simp [hd]
    idleEmpty := (absurd · hidle)
    chainPresent := iff_of_false (by simp) hidle
    digestIsSer := by simp [hd] }

theorem State.Inv.serialize {s : State} (hs : s.Inv) (hp : s.phase = .finalized) {c : Chain} (hc : s.h = some c) :
    (s.serialize c).Inv :=
  { hs with
    digestPhase := fun _ => hp
    idleEmpty := by simp [hp]
    digestPresent := by simp
    digestIsSer := by simp [hc] }

/-! Every command and every step keeps the invariant. -/

theorem exec_keeps_inv {i : Instr} {s t : State} (hs : s.Inv) (h : exec i s = .next t) : t.Inv := by
  rcases exec_next_cases h with ⟨e, rfl, -⟩ | ⟨-, rfl⟩ | ⟨b, -, -, hp, hroom, rfl⟩ | ⟨-, -, hp, rfl⟩ |
    ⟨c, b, -, -, hp, -, -, rfl⟩ | ⟨c, -, -, hp, -, hc, rfl⟩ | ⟨r, reg, d, -, -, -, -, rfl⟩
  · exact hs.raised e
  · exact s.start_inv.reply _
  · exact (hs.append hp hroom b).reply _
  · exact (hs.frame hp).reply _
  · exact (hs.absorb hp _).reply _
  · exact (hs.serialize hp hc).reply _
  · exact hs.reply _

/-- What taking an event off the port, every command, every exception and a reset keep, every step keeps. -/
theorem step_keeps {P : State → Prop} (hport : ∀ s p, P s → P (s.setPort p))
    (hexec : ∀ i s t, P s → exec i s = .next t → P t) (hraised : ∀ s e, P s → P (s.raised e))
    (hreset : ∀ s : State, P s.resetEvent) {s t : State} (hs : P s) (h : step s = .next t) : P t := by
  rcases step_next_cases h with ⟨-, rfl⟩ |
    ⟨e, rest, -, ⟨w, i, -, -, h⟩ | ⟨w, why, -, -, rfl⟩ | ⟨-, rfl⟩⟩
  · exact hs
  · exact hexec i _ t (hport s rest hs) h
  · exact hraised _ _ (hport s rest hs)
  · exact hreset _

/-- Settles O36: each branch of `exec_next_cases` is one named update, and each keeps the invariant. -/
theorem stepKeepsTheInvariant : Obligations.StepKeepsTheInvariant := fun _ _ =>
  step_keeps (fun _ p hs => hs.setPort p) (fun _ _ _ => exec_keeps_inv) (fun _ e hs => hs.raised e)
    State.resetEvent_inv

/-- Settles O35: the state after reset is one that a reset event leads to. -/
theorem resetMeetsTheInvariant : Obligations.ResetMeetsTheInvariant :=
  ⟨State.resetWith_inv _, State.resetWith_inv⟩

theorem Reachable.inv {s : State} (h : Reachable s) : s.Inv := by
  induction h with
  | reset c => exact State.resetWith_inv c
  | issue s e _ hs => exact hs.enqueue e
  | step s t _ hstep hs => exact stepKeepsTheInvariant s t hs hstep

/-- Settles O38: the seven items are fields of the invariant, with LEN and CAP_EFF in numbers. -/
theorem reachableStatesMeetTheSevenItems : Obligations.ReachableStatesMeetTheSevenItems := by
  intro s hreach
  have hs := hreach.inv
  have hlen := s.len_eq_div
  refine ⟨⟨hs.lcntMultiple, ?_⟩, ?_, hs.countersZero, ?_, hs.finalized, hs.digestPhase, hs.idleEmpty⟩
  · rw [← hlen, ← s.capEff_eq]
    exact hs.lenBound
  · have := hs.notPadding
    cases hp : s.phase <;> simp_all
  · rw [← hlen]
    exact hs.absorbing

/-! The message buffer, H and PUSH. -/

theorem exec_keeps_msg_wf {i : Instr} {s t : State} (hwf : Memory.wf s.msg) (h : exec i s = .next t) :
    Memory.wf t.msg := by
  rcases exec_next_cases h with ⟨e, rfl, -⟩ | ⟨-, rfl⟩ | ⟨b, -, -, -, -, rfl⟩ | ⟨-, -, -, rfl⟩ |
    ⟨c, b, -, -, -, -, -, rfl⟩ | ⟨c, -, -, -, -, -, rfl⟩ | ⟨r, reg, d, -, -, -, -, rfl⟩
  · rwa [State.raised_msg]
  · exact s.start_msg_wf
  · exact State.append_msg_wf hwf b
  all_goals exact hwf

/-- Settles O34: PUSH alone writes a cell, and `Memory.write` keeps the positions rising. -/
theorem messageBufferStaysCanonical : Obligations.MessageBufferStaysCanonical := fun _ _ =>
  step_keeps (P := fun s => Memory.wf s.msg) (fun _ _ hwf => hwf) (fun _ _ _ => exec_keeps_msg_wf)
    (fun s e hwf => by rwa [State.raised_msg]) State.resetEvent_msg_wf

theorem exec_h_eq {i : Instr} {s t : State} (h : exec i s = .next t) (hinit : i ≠ .init)
    (hcompress : i ≠ .compress) : t.h = s.h := by
  rcases exec_next_cases h with ⟨e, rfl, -⟩ | ⟨rfl, -⟩ | ⟨b, -, -, -, -, rfl⟩ | ⟨-, -, -, rfl⟩ |
    ⟨c, b, rfl, -⟩ | ⟨c, -, -, -, -, -, rfl⟩ | ⟨r, reg, d, -, -, -, -, rfl⟩
  · exact s.raised_h e
  · exact absurd rfl hinit
  · rfl
  · rfl
  · exact absurd rfl hcompress
  · rfl
  · rfl

/-- Settles O31: an Illegal word raises an exception, and no command but the two updates H. -/
theorem onlyInitAndCompressWriteTheChain : Obligations.OnlyInitAndCompressWriteTheChain := by
  intro w s t hrun hinit hcompress
  rcases runWord_next_cases hrun with ⟨i, hdec, hexec⟩ | ⟨why, -, rfl⟩
  · rw [hdec] at hinit hcompress
    exact exec_h_eq hexec (hinit <| congrArg _ ·) (hcompress <| congrArg _ ·)
  · exact s.raised_h _

/-- R103: PUSH in an unlocked INIT state with room in the buffer. -/
theorem exec_push_of_room {s : State} (hl : locked s = false) (hp : s.phase = .init) (hroom : s.len < s.capEff)
    (b : Byte) : exec (.push b) s = .next ((s.append b).reply ⟨0, 0⟩) := by
  rcases execPush_cases b s with ⟨hrefused, -⟩ | ⟨-, -, hfull, -⟩ | ⟨-, -, -, h⟩
  · simp [hl, hp] at hrefused
  · omega
  · exact h

/-- Settles O33: PUSH appends the byte, and LEN < CAP_EFF ≤ 2^61 - 1 leaves LCNT room for 8 more. -/
theorem acceptedPushCountsExactly : Obligations.AcceptedPushCountsExactly := by
  intro s b hs hl hp hroom
  have hlcnt := hs.append_lcnt hroom b
  refine ⟨_, exec_push_of_room hl hp hroom b, hlcnt, ?_, hs.append_len hroom b, ?_⟩
  · have hcap := s.capEff_le
    have := hs.lcnt_eq
    rw [State.reply_lcnt, hlcnt]
    omega
  · simp [Memory.write_of_cells hs.messageCells]

/-! The error flags, STATUS and the values after reset. -/

/-- Settles O27: the three cases of `runWord_response_cases`, told apart by the code of the response. -/
theorem flagsAreStickyAndSetByExceptionsOnly : Obligations.FlagsAreStickyAndSetByExceptionsOnly := by
  intro w s t r hrun hresp
  rcases runWord_response_cases hrun with ⟨e, rfl, hdec⟩ | ⟨hdec, rfl⟩ | ⟨d, hdec, hd, hflag, -⟩
  · obtain rfl : r = ⟨excCode e, 0⟩ := by simpa [eq_comm] using hresp
    refine ⟨fun _ e' h => by simp [State.raised_flag, h], fun h => absurd h hdec, ?_⟩
    cases e <;> simp [excCode]
  · obtain rfl : r = ⟨0, 0⟩ := by simpa [eq_comm] using hresp
    refine ⟨fun h => absurd hdec h, fun _ e => s.start_flag e, ?_⟩
    simp
  · obtain rfl : r = ⟨0, d⟩ := by simpa [hd, eq_comm] using hresp
    refine ⟨fun _ e h => hflag ▸ h, fun h => absurd h hdec, fun _ e h => hflag ▸ h, ?_⟩
    simp

/-- R37, bit by bit: PHASE in the lowest three, then DVALID and the error flags, then zeros. -/
theorem statusWord_getLsbD (s : State) (i : Nat) : (statusWord s).getLsbD i =
    if i < 3 then (phaseCode s.phase).getLsbD i
    else [s.dvalid, s.eMisuse, s.eTooLarge, s.eIllegal].getD (i - 3) false := by
  unfold statusWord
  rw [BitVec.getLsbD_append (n := 29) (m := 3)]
  split
  · rfl
  · rw [BitVec.getLsbD_append (n := 28) (m := 1), BitVec.getLsbD_append (n := 27) (m := 1),
      BitVec.getLsbD_append (n := 26) (m := 1), BitVec.getLsbD_append (n := 25) (m := 1)]
    rcases i - 3 with _ | _ | _ | _ | k <;> simp

theorem statusWord_phase (s : State) : (statusWord s).extractLsb 2 0 = phaseCode s.phase := by
  refine BitVec.eq_of_getLsbD_eq fun i hi => ?_
  rw [BitVec.getLsbD_extractLsb, Nat.zero_add, statusWord_getLsbD, if_pos (by omega)]
  simp [show i < 3 by omega]

theorem State.Inv.phaseCode_le {s : State} (hs : s.Inv) : (phaseCode s.phase).toNat ≤ 3 := by
  have := hs.notPadding
  cases hp : s.phase <;> simp_all [phaseCode]

/-- Settles O29: each bit of the concatenation is a bit of the field it falls in. -/
theorem statusHoldsItsFields : Obligations.StatusHoldsItsFields := by
  intro s
  refine ⟨?_, statusWord_getLsbD s 3, statusWord_getLsbD s 4, statusWord_getLsbD s 5, statusWord_getLsbD s 6,
    ?_, ?_⟩
  · rw [statusWord_phase]
    cases s.phase <;> rfl
  · intro i hi
    rw [statusWord_getLsbD, if_neg (by omega)]
    exact List.getD_eq_default _ _ (Nat.le_sub_of_add_le hi)
  · intro hs
    rw [statusWord_phase]
    exact hs.phaseCode_le

theorem State.resetWith_len (c : Config) : (State.resetWith c).len = 0 := by
  simp [State.len, State.resetWith]

theorem State.resetWith_statusWord (c : Config) : statusWord (State.resetWith c) = 0x00000000 := by
  simp [statusWord, State.resetWith, phaseCode]

/-- Settles O10: `State.reset` is `State.resetWith` of the default capacity, and each value is a field of it. -/
theorem resetStateHoldsTheResetValues : Obligations.ResetStateHoldsTheResetValues := by
  intro s hreset
  obtain ⟨c, rfl⟩ : ∃ c, s = State.resetWith c := hreset.elim (⟨_, ·⟩) id
  exact ⟨rfl, fun _ => rfl, State.resetWith_len c, rfl, rfl, rfl, rfl, rfl, rfl, rfl, rfl, rfl,
    State.resetWith_statusWord c⟩

end Sys2Proof.Machine

namespace Sys2Proof.Machine

/-! The frame of RDREG, and the instances of a platform. -/

/-- R200: what RDREG can do when it answers a next state. -/
theorem exec_rdreg_next_cases {r : Byte} {s t : State} (h : exec (.rdreg r) s = .next t) :
    (∃ d, t = s.reply ⟨0, d⟩) ∨ t = s.raised .misuseError ∨ t = s.raised .illegalCommand := by
  change execRdreg r s = _ at h
  rcases execRdreg_cases r s with ⟨-, e⟩ | ⟨reg, -, ⟨-, e⟩ | ⟨-, ⟨f, -, e⟩ | ⟨d, -, e⟩⟩⟩ <;> rw [h] at e <;> cases e
  · exact .inr (.inr rfl)
  · exact .inr (.inl rfl)
  · exact .inl ⟨d, rfl⟩

/-- Settles O22: a reply and the two exceptions RDREG can raise, each written out as a record. -/
theorem rdregFrame : Obligations.RdregFrame := by
  intro s t r h
  rcases exec_rdreg_next_cases h with ⟨d, rfl⟩ | rfl | rfl
  · exact .inl ⟨d, rfl⟩
  · exact .inr (.inl rfl)
  · exact .inr (.inr rfl)

/-- R63: the states of different instances can be replaced in either order. -/
theorem Platform.setChip_comm {n : Nat} (p : Platform n) {j k : Fin (n + 1)} (h : j ≠ k) (s t : State) :
    (p.setChip j s).setChip k t = (p.setChip k t).setChip j s := by
  change (p.setChip j s).set k ⟨(p.setChip j s)[k].host, t⟩ = (p.setChip k t).set j ⟨(p.setChip k t)[j].host, s⟩
  rw [p.setChip_other h.symm, p.setChip_other h]
  exact Vector.set_comm _ _ (Fin.val_ne_of_ne h)

/-- Settles O57: a step of instance k replaces its state alone. -/
theorem instancesAreIsolated : Obligations.InstancesAreIsolated := by
  intro n p q k hstep
  obtain ⟨t, ht, rfl⟩ := p.stepAt_eq_next_iff.1 hstep
  exact ⟨fun j hj => p.setChip_other hj t, t, ht, p.setChip_same k t⟩

/-- Settles O58: neither step sees the other's instance, and the two replacements commute. -/
theorem stepsOfDifferentInstancesCommute : Obligations.StepsOfDifferentInstancesCommute := by
  intro n p q r j k hjk hj hk
  obtain ⟨s, hs, rfl⟩ := p.stepAt_eq_next_iff.1 hj
  obtain ⟨t, ht, rfl⟩ := Platform.stepAt_eq_next_iff _ |>.1 hk
  rw [p.setChip_other hjk.symm] at ht
  refine ⟨p.setChip k t, p.stepAt_eq_next_iff.2 ⟨t, ht, rfl⟩, Platform.stepAt_eq_next_iff _ |>.2 ⟨s, ?_, ?_⟩⟩
  · rw [p.setChip_other hjk]
    exact hs
  · exact p.setChip_comm hjk s t

/-- R64: a host other than the instance's own is refused. -/
theorem Platform.issue_of_ne {n : Nat} (p : Platform n) {host : Nat} {k : Fin (n + 1)} (h : host ≠ p[k].host)
    (w : Word) : p.issue host k w = .refused .secondHost := if_neg h.symm

/-- R64: the instance's own host places its word at the end of the port. -/
theorem Platform.issue_own {n : Nat} (p : Platform n) (k : Fin (n + 1)) (w : Word) :
    p.issue p[k].host k w = .next (p.setChip k (p[k].chip.enqueue (.command w))) := if_pos rfl

/-- Settles O59: the two branches of `Platform.issue`, the second of which replaces the state of k alone. -/
theorem secondHostIsRefused : Obligations.SecondHostIsRefused := by
  intro n p k host w
  refine ⟨fun h => p.issue_of_ne h w, ?_⟩
  rintro rfl
  exact ⟨_, p.issue_own k w, p.setChip_same k _, fun j hj => p.setChip_other hj _⟩

end Sys2Proof.Machine

namespace Sys2Proof.Machine

/-- R77, R222: an Illegal word raises IllegalCommand. -/
theorem runWord_of_decode_illegal {w : Word} {why : IllegalWord} (h : decode w = .illegal why) (s : State) :
    runWord w s = .next (s.raised .illegalCommand) := by
  simp only [runWord, h, raise]

end Sys2Proof.Machine

namespace Sys2Proof

/-! The fields of a word (R71): the word they make up, and the fields of an encoded word (R75). -/

theorem aboveOpField_append_opField (w : Word) : (aboveOpField w ++ opField w : BitVec 32) = w :=
  BitVec.extractLsb'_append_extractLsb'

theorem rsvHiField_append_immField_append_rsvLoField (w : Word) :
    (rsvHiField w ++ immField w ++ rsvLoField w : BitVec 28) = aboveOpField w := by
  have himm : (rsvHiField w ++ immField w : BitVec 24) = w.extractLsb' 8 24 :=
    BitVec.extractLsb'_append_extractLsb'_eq_extractLsb' rfl
  rw [himm]
  exact BitVec.extractLsb'_append_extractLsb'_eq_extractLsb' rfl

/-- R72, format N: a word with nothing above OP is the number of its opcode. -/
theorem ofNat_opField {w : Word} (habove : aboveOpField w = 0) : BitVec.ofNat 32 (opField w).toNat = w := by
  calc BitVec.ofNat 32 (opField w).toNat = (0#28 ++ opField w : BitVec 32) := by simp [BitVec.setWidth_eq_append]
    _ = aboveOpField w ++ opField w := by rw [habove]; rfl
    _ = w := aboveOpField_append_opField w

/-- R72, format I: a word with clear reserved fields is the encoding of its own operand. -/
theorem encodeFormatI_immField {w : Word} (hhi : rsvHiField w = 0) (hlo : rsvLoField w = 0) :
    encodeFormatI (opField w) (immField w) = w := by
  have h := aboveOpField_append_opField w
  rwa [← rsvHiField_append_immField_append_rsvLoField, hhi, hlo] at h

section
variable (op : BitVec 4) (imm : Byte)

@[simp] theorem opField_encodeFormatI : opField (encodeFormatI op imm) = op :=
  BitVec.extractLsb'_append_eq_right

@[simp] theorem rsvLoField_encodeFormatI : rsvLoField (encodeFormatI op imm) = 0 := by
  rw [rsvLoField, encodeFormatI, BitVec.extractLsb'_append_eq_of_le (by decide)]
  exact BitVec.extractLsb'_append_eq_right

@[simp] theorem immField_encodeFormatI : immField (encodeFormatI op imm) = imm := by
  rw [immField, encodeFormatI, BitVec.extractLsb'_append_eq_of_le (by decide),
    BitVec.extractLsb'_append_eq_of_le (by decide)]
  exact BitVec.extractLsb'_append_eq_right

@[simp] theorem rsvHiField_encodeFormatI : rsvHiField (encodeFormatI op imm) = 0 := by
  rw [rsvHiField, encodeFormatI, BitVec.extractLsb'_append_eq_of_le (by decide),
    BitVec.extractLsb'_append_eq_of_le (by decide)]
  exact BitVec.extractLsb'_append_eq_left

end

/-- Settles O1: the fields of an encoded word are the opcode, the operand and zeros. -/
theorem decodeOfEncodeIsTheCommand : Obligations.DecodeOfEncodeIsTheCommand := by
  intro i
  cases i with
  | push imm => simp [decode, encode, decodeFormatI]
  | rdreg r => simp [decode, encode, decodeFormatI]
  | _ => rfl

/-! What the decoder answers in each format (R72). -/

theorem decodeFormatN_eq_command_iff {w : Word} {i j : Instr} :
    decodeFormatN w i = .command j ↔ aboveOpField w = 0 ∧ i = j := by
  unfold decodeFormatN
  split <;> simp_all

theorem decodeFormatI_eq_command_iff {w : Word} {f : Byte → Instr} {j : Instr} :
    decodeFormatI w f = .command j ↔ rsvHiField w = 0 ∧ rsvLoField w = 0 ∧ f (immField w) = j := by
  unfold decodeFormatI
  split <;> simp_all

theorem decodeFormatN_illegal_iff {w : Word} {i : Instr} :
    (∃ why, decodeFormatN w i = .illegal why) ↔ aboveOpField w ≠ 0 := by
  unfold decodeFormatN
  split <;> simp_all

theorem decodeFormatI_illegal_iff {w : Word} {f : Byte → Instr} :
    (∃ why, decodeFormatI w f = .illegal why) ↔ rsvHiField w ≠ 0 ∨ rsvLoField w ≠ 0 := by
  unfold decodeFormatI
  split <;> simp_all [imp_iff_not_or]

theorem encode_of_decodeFormatN {w : Word} {i j : Instr} (hop : encode i = BitVec.ofNat 32 (opField w).toNat)
    (h : decodeFormatN w i = .command j) : encode j = w := by
  obtain ⟨habove, rfl⟩ := decodeFormatN_eq_command_iff.1 h
  rw [hop, ofNat_opField habove]

theorem encode_of_decodeFormatI {w : Word} {f : Byte → Instr} {j : Instr}
    (hop : ∀ imm, encode (f imm) = encodeFormatI (BitVec.ofNat 4 (opField w).toNat) imm)
    (h : decodeFormatI w f = .command j) : encode j = w := by
  obtain ⟨hhi, hlo, rfl⟩ := decodeFormatI_eq_command_iff.1 h
  rw [hop, BitVec.ofNat_toNat, BitVec.setWidth_eq, encodeFormatI_immField hhi hlo]

/-- Settles O2: each arm of the decoder fixes every bit of the word but the operand's. -/
theorem encodeOfDecodeIsTheWord : Obligations.EncodeOfDecodeIsTheWord := by
  intro w i hdec
  unfold decode at hdec
  split at hdec
  next hop => exact encode_of_decodeFormatN (by rw [hop]; rfl) hdec
  next hop => exact encode_of_decodeFormatI (by rw [hop]; intro; rfl) hdec
  next hop => exact encode_of_decodeFormatN (by rw [hop]; rfl) hdec
  next hop => exact encode_of_decodeFormatN (by rw [hop]; rfl) hdec
  next hop => exact encode_of_decodeFormatN (by rw [hop]; rfl) hdec
  next hop => exact encode_of_decodeFormatI (by rw [hop]; intro; rfl) hdec
  next => cases hdec

/-- R74 to R76: a command has one word, its encoding. -/
theorem decode_eq_command_iff {w : Word} {i : Instr} : decode w = .command i ↔ encode i = w :=
  ⟨encodeOfDecodeIsTheWord w i, fun h => h ▸ decodeOfEncodeIsTheCommand i⟩

/-- R77: the decoder finds no command exactly when one of the three clauses holds. -/
theorem decode_illegal_iff (w : Word) : (∃ why, decode w = .illegal why) ↔
    ((opField w).toNat = 0 ∨ 7 ≤ (opField w).toNat) ∨
    ((opField w).toNat ∈ [0x1, 0x3, 0x4, 0x5] ∧ aboveOpField w ≠ 0) ∨
    ((opField w).toNat ∈ [0x2, 0x6] ∧ (rsvHiField w ≠ 0 ∨ rsvLoField w ≠ 0)) := by
  unfold decode
  split
  next hop => simp [hop, decodeFormatN_illegal_iff]
  next hop => simp [hop, decodeFormatI_illegal_iff]
  next hop => simp [hop, decodeFormatN_illegal_iff]
  next hop => simp [hop, decodeFormatN_illegal_iff]
  next hop => simp [hop, decodeFormatN_illegal_iff]
  next hop => simp [hop, decodeFormatI_illegal_iff]
  next =>
    refine iff_of_true ⟨_, rfl⟩ (.inl ?_)
    grind

/-- Settles O3: the decoder has one arm per assigned opcode, and an Illegal word runs as one `raise`. -/
theorem illegalWordsAreThoseOfTheThreeClauses : Obligations.IllegalWordsAreThoseOfTheThreeClauses := by
  intro w
  exact ⟨decode_illegal_iff w, fun why s hdec => Machine.runWord_of_decode_illegal hdec s⟩

/-- Settles O6: each of the seven words is a closed case of the decoder. -/
theorem wordsOfThePatternsDecode : Obligations.WordsOfThePatternsDecode := by
  unfold Obligations.WordsOfThePatternsDecode
  decide

/-! The rows of the opcode map (R74) by the fields of a word. -/

theorem Instr.row_mem_opcodeMap (i : Instr) : i.row ∈ opcodeMap := by
  cases i <;> simp [opcodeMap, Instr.row]

theorem Instr.tableRow (i : Instr) : Laws.TableRow.Statement i := by
  cases i with
  | init => exact Laws.TableRow.init
  | push imm => exact Laws.TableRow.push imm
  | pad => exact Laws.TableRow.pad
  | compress => exact Laws.TableRow.compress
  | finalize => exact Laws.TableRow.finalize
  | rdreg r => exact Laws.TableRow.rdreg r

/-- The mask of the format I rows keeps OP and the reserved fields. -/
theorem encodeFormatI_of_masked {w : Word} {op : BitVec 4} (h : w &&& 0xFFFF00FF = encodeFormatI op 0) :
    encodeFormatI op (immField w) = w := by
  have hop : opField w = op := by
    rw [← opField_encodeFormatI op 0, ← h, opField, opField, BitVec.extractLsb'_and]
    exact (BitVec.and_allOnes).symm
  have hhi : rsvHiField w = 0 := by
    rw [← rsvHiField_encodeFormatI op 0, ← h, rsvHiField, rsvHiField, BitVec.extractLsb'_and]
    exact (BitVec.and_allOnes).symm
  have hlo : rsvLoField w = 0 := by
    rw [← rsvLoField_encodeFormatI op 0, ← h, rsvLoField, rsvLoField, BitVec.extractLsb'_and]
    exact (BitVec.and_allOnes).symm
  exact hop ▸ encodeFormatI_immField hhi hlo

/-- R74: a word that selects a row is the word of one of its commands. -/
theorem exists_encode_of_selected {w : Word} {row : OpcodeRow} (hrow : row ∈ opcodeMap)
    (h : w &&& row.maskBits = row.matchBits) : ∃ i : Instr, encode i = w ∧ i.row = row := by
  have full {i : Instr} (h : w &&& 0xFFFFFFFF = encode i) : encode i = w := by
    rw [← h]
    exact BitVec.and_allOnes
  simp only [opcodeMap, List.mem_cons, List.not_mem_nil, or_false] at hrow
  rcases hrow with rfl | rfl | rfl | rfl | rfl | rfl
  · exact ⟨.init, full h, rfl⟩
  · exact ⟨.push (immField w), encodeFormatI_of_masked h, rfl⟩
  · exact ⟨.pad, full h, rfl⟩
  · exact ⟨.compress, full h, rfl⟩
  · exact ⟨.finalize, full h, rfl⟩
  · exact ⟨.rdreg (immField w), encodeFormatI_of_masked h, rfl⟩

theorem selects_row_iff {w : Word} {row : OpcodeRow} (hrow : row ∈ opcodeMap) :
    w &&& row.maskBits = row.matchBits ↔ ∃ i, decode w = .command i ∧ i.row = row := by
  simp only [decode_eq_command_iff]
  refine ⟨exists_encode_of_selected hrow, ?_⟩
  rintro ⟨i, rfl, rfl⟩
  exact beq_iff_eq.1 i.tableRow.1

/-- Settles O4: a word that selects a row is the word of a command of that row, and a word is at most one command's. -/
theorem wordSelectsExactlyItsCommandsRow : Obligations.WordSelectsExactlyItsCommandsRow := by
  refine ⟨by decide, fun w row => selects_row_iff, fun w r₁ r₂ hr₁ hr₂ h₁ h₂ => ?_⟩
  obtain ⟨i, hi, rfl⟩ := (selects_row_iff hr₁).1 h₁
  obtain ⟨j, hj, rfl⟩ := (selects_row_iff hr₂).1 h₂
  obtain rfl : i = j := by simpa [hi] using hj
  rfl

/-- R71, R72: the three field checks fix every bit that some row's mask keeps. -/
theorem exists_row_of_wordWellFormed {w : Word} (h : wordWellFormed w = true) :
    ∃ row ∈ opcodeMap, w &&& row.maskBits = row.matchBits := by
  simp only [wordWellFormed, opAssigned, reservedClear, operandClear, takesOperand, Bool.and_eq_true, Bool.or_eq_true,
    beq_iff_eq, decide_eq_true_eq] at h
  obtain ⟨⟨⟨hmin, hmax⟩, hrsv⟩, hoperand⟩ := h
  have formatI : w &&& 0xFFFF00FF = w &&& 0x0000000F := by
    have hmask : (0xFFFF00FF : Word) = 0x0000000F ||| 0xFFFF00F0 := rfl
    rw [hmask, BitVec.and_or_distrib_left, hrsv]
    exact BitVec.or_zero
  have formatN (h : w &&& 0x0000FF00 = 0) : w &&& 0xFFFFFFFF = w &&& 0x0000000F := by
    have hmask : (0xFFFFFFFF : Word) = 0xFFFF00FF ||| 0x0000FF00 := rfl
    rw [hmask, BitVec.and_or_distrib_left, h, formatI]
    exact BitVec.or_zero
  generalize w &&& 0x0000000F = op at *
  obtain rfl | rfl | rfl | rfl | rfl | rfl : op = 1 ∨ op = 2 ∨ op = 3 ∨ op = 4 ∨ op = 5 ∨ op = 6 := by bv_omega
  · exact ⟨_, Instr.row_mem_opcodeMap .init, formatN (hoperand.resolve_left (by decide))⟩
  · exact ⟨_, Instr.row_mem_opcodeMap (.push 0), formatI⟩
  · exact ⟨_, Instr.row_mem_opcodeMap .pad, formatN (hoperand.resolve_left (by decide))⟩
  · exact ⟨_, Instr.row_mem_opcodeMap .compress, formatN (hoperand.resolve_left (by decide))⟩
  · exact ⟨_, Instr.row_mem_opcodeMap .finalize, formatN (hoperand.resolve_left (by decide))⟩
  · exact ⟨_, Instr.row_mem_opcodeMap (.rdreg 0), formatI⟩

/-- Settles O5: a well-formed word selects a row, and every command's word is well formed. -/
theorem wellFormedWordsAreTheCommands : Obligations.WellFormedWordsAreTheCommands := by
  intro w
  constructor
  · intro h
    obtain ⟨row, hrow, hselects⟩ := exists_row_of_wordWellFormed h
    obtain ⟨i, hdec, -⟩ := (selects_row_iff hrow).1 hselects
    exact ⟨i, hdec⟩
  · rintro ⟨i, hdec⟩
    obtain ⟨-, hwf⟩ := i.tableRow
    rwa [decode_eq_command_iff.1 hdec] at hwf

end Sys2Proof

namespace Sys2Proof.Machine

/-! What a command returns (R78). -/

theorem excCode_toNat_le (e : Exc) : (excCode e).toNat ≤ 3 := by cases e <;> decide

theorem excCode_ne_zero (e : Exc) : excCode e ≠ 0 := by cases e <;> decide

/-- R78: a command that raises nothing responds with code 0, and with data only as an RDREG. -/
theorem exec_rdata_cases {i : Instr} {s t : State} (h : exec i s = .next t) :
    (∃ e, t = s.raised e) ∨
    ((∀ n, i ≠ .rdreg n) ∧ t.responses = s.responses ++ [⟨0, 0⟩]) ∨
    (∃ n reg d, i = .rdreg n ∧ regOfNumber n = some reg ∧ regValue s reg = .ok d ∧
      t.responses = s.responses ++ [⟨0, d⟩]) := by
  rcases exec_next_cases h with ⟨e, rfl, -⟩ | ⟨rfl, rfl⟩ | ⟨b, rfl, -, -, -, rfl⟩ | ⟨rfl, -, -, rfl⟩ |
    ⟨c, b, rfl, -, -, -, -, rfl⟩ | ⟨c, rfl, -, -, -, -, rfl⟩ | ⟨r, reg, d, rfl, hreg, -, hd, rfl⟩
  · exact .inl ⟨e, rfl⟩
  case inr.inr.inr.inr.inr.inr => exact .inr (.inr ⟨r, reg, d, rfl, hreg, hd, rfl⟩)
  all_goals exact .inr (.inl ⟨by simp, rfl⟩)

/-- Settles O23: an exception returns its code and 0, INIT to FINALIZE return 0, and RDREG the register's value. -/
theorem everyCommandReturnsOneResponse : Obligations.EveryCommandReturnsOneResponse := by
  intro w s t hrun
  have raised (e : Exc) : ∃ r : Response, (s.raised e).responses = s.responses ++ [r] ∧ r.rcode.toNat ≤ 3 ∧
      r.rcode ≠ 0 ∧ r.rdata = 0 :=
    ⟨⟨excCode e, 0⟩, s.raised_responses e, excCode_toNat_le e, excCode_ne_zero e, rfl⟩
  rcases runWord_next_cases hrun with ⟨i, hdec, hexec⟩ | ⟨why, hdec, rfl⟩
  · rcases exec_rdata_cases hexec with ⟨e, rfl⟩ | ⟨hi, hresp⟩ | ⟨n, reg, d, rfl, hreg, hd, hresp⟩
    · obtain ⟨r, hresp, hle, hne, hdata⟩ := raised e
      exact ⟨r, hresp, hle, .inr ⟨fun _ _ => hne, hdata⟩⟩
    · exact ⟨⟨0, 0⟩, hresp, Nat.zero_le 3, .inr ⟨fun n hn => absurd (Decoded.command.inj (hdec ▸ hn)) (hi n), rfl⟩⟩
    · exact ⟨⟨0, d⟩, hresp, Nat.zero_le 3, .inl ⟨n, reg, hdec, rfl, hreg, hd⟩⟩
  · obtain ⟨r, hresp, hle, hne, hdata⟩ := raised .illegalCommand
    exact ⟨r, hresp, hle, .inr ⟨fun _ _ => hne, hdata⟩⟩

/-! The padding in closed form (R102), position by position. -/

/-- R107: message, terminator, zeros and length field fill the blocks. -/
theorem add_zeroCount (n : Nat) : n + 1 + zeroCount n + 8 = 64 * blockCount n := by
  unfold zeroCount blockCount
  omega

theorem length_be64Bytes (v : Dword) : (be64Bytes v).length = 8 := by simp [be64Bytes]

section
variable (m : List Byte)

theorem length_padded : (padded m).length = 64 * blockCount m.length := by
  simp [padded, length_be64Bytes, ← add_zeroCount]
  omega

variable {m}

theorem padded_message {p : Nat} (h : p < m.length) : (padded m)[p]? = m[p]? := by
  simp [padded, List.getElem?_append_left, h]

theorem padded_terminator : (padded m)[m.length]? = some 0x80 := by
  simp [padded]

theorem padded_zeros {p : Nat} (hlo : m.length < p) (hhi : p < 64 * blockCount m.length - 8) :
    (padded m)[p]? = some 0x00 := by
  have hz := add_zeroCount m.length
  unfold padded
  rw [List.getElem?_append_left (by simp; omega), List.getElem?_append_right (by simp; omega),
    List.getElem?_replicate_of_lt (by simp; omega)]

theorem padded_lengthField {k : Nat} (hk : k < 8) :
    (padded m)[64 * blockCount m.length - 8 + k]? = some (be64 (BitVec.ofNat 64 (8 * m.length)) k) := by
  have hz := add_zeroCount m.length
  unfold padded
  rw [List.getElem?_append_right (by simp; omega)]
  calc _ = (be64Bytes (BitVec.ofNat 64 (8 * m.length)))[k]? := by
        congr 1
        simp
        omega
    _ = _ := by simp [be64Bytes, hk]

end

/-! The framer (R110, R112) against the closed form, in states that meet the invariant. -/

theorem State.framed_iff (s : State) : s.framed = true ↔ s.phase = .absorbing ∨ s.phase = .finalized := by
  simp [State.framed]

section
variable {s : State} (hs : s.Inv)
include hs

theorem State.Inv.length_message : (s.msg.map Prod.snd).length = s.len := by
  rw [List.length_map, Memory.length_of_cells hs.messageCells]

theorem State.Inv.lcnt_eq_ofNat : s.lcnt = BitVec.ofNat 64 (8 * s.len) := by
  rw [← hs.lcnt_eq, BitVec.ofNat_toNat, BitVec.setWidth_eq]

variable (hf : s.framed = true)
include hf

theorem State.Inv.nblk_toNat : s.nblk.toNat = blockCount s.len := by
  rcases s.framed_iff.1 hf with hp | hp
  · exact (hs.absorbing hp).2
  · exact hs.finalizedCount hp

/-- R110 against R102: the framer answers the byte of the closed form. -/
theorem State.Inv.padByte_eq {p : Nat} (hp : p < s.paddedLength) {b : Byte}
    (hb : (padded (s.msg.map Prod.snd))[p]? = some b) : padByte s p = .ok b := by
  have hlen := hs.length_message
  have hP : s.paddedLength = 64 * blockCount (s.msg.map Prod.snd).length := by
    rw [State.paddedLength, hs.nblk_toNat hf, hlen]
  unfold padByte
  rw [if_neg (by simp [hf, hp])]
  split
  next hlt =>
    obtain ⟨b', hb', hread⟩ := msgRead_ok hs.messageCells hlt
    rw [padded_message (hlen ▸ hlt), hb'] at hb
    rw [hread, Option.some.inj hb]
  next hge =>
    split
    next heq =>
      rw [heq, ← hlen, padded_terminator] at hb
      rw [Option.some.inj hb]
    next hne =>
      split
      next hlt =>
        rw [padded_zeros (by omega) (by omega)] at hb
        rw [Option.some.inj hb]
      next hge =>
        obtain ⟨k, rfl⟩ := Nat.exists_eq_add_of_le (Nat.le_of_not_lt hge)
        rw [hP, padded_lengthField (by omega), hlen, ← hs.lcnt_eq_ofNat] at hb
        rw [Nat.add_sub_cancel_left, Option.some.inj hb]

/-- R112 against R205: the framer's blocks are the closed form's. -/
theorem State.Inv.blockAt_eq {i : Nat} (hi : i < s.nblk.toNat) :
    blockAt s i = .ok (blockOf (padded (s.msg.map Prod.snd)) i) := by
  obtain ⟨b, hb, hbytes⟩ := blockAt_ok hf hs.messageCells hi
  refine hb.trans (congrArg _ (Vector.ext fun j hj => ?_))
  have hp : 64 * i + j < s.paddedLength := by
    unfold State.paddedLength
    omega
  have hlt : 64 * i + j < (padded (s.msg.map Prod.snd)).length := by
    rwa [length_padded, hs.length_message, ← hs.nblk_toNat hf]
  have hbyte := (hbytes j hj).symm.trans (hs.padByte_eq hf hp (List.getElem?_eq_getElem hlt))
  rw [Except.ok.inj hbyte, blockOf, Vector.getElem_ofFn, List.getD_eq_getElem _ _ hlt]

end

end Sys2Proof.Machine

namespace Sys2Proof.Machine

/-! The commands of HASH m (R80), from any state. -/

/-- R181 to R191: the unlocked state t that n accepted commands of one computation lead to from s, with the message m
held, the chain c and no digest yet. -/
structure Computing (s t : State) (m : List Byte) (n : Nat) (c : Chain) : Prop where
  inv : t.Inv
  unlocked : locked t = false
  message : t.msg.map Prod.snd = m
  chain : t.h = some c
  noDigest : t.dvalid = false
  capEff : t.capEff = s.capEff
  faultLog : t.faultLog = s.faultLog
  responses : t.responses = s.responses ++ List.replicate n ⟨0, 0⟩

theorem exec_init (s : State) : exec .init s = .next (s.start.reply ⟨0, 0⟩) := rfl

/-- R105: PAD in an unlocked INIT state. -/
theorem exec_pad_of_init {s : State} (hl : locked s = false) (hp : s.phase = .init) :
    exec .pad s = .next (s.startPadding.frame.reply ⟨0, 0⟩) := by
  rcases execPad_cases s with ⟨hrefused, -⟩ | ⟨-, -, h⟩
  · simp [hl, hp] at hrefused
  · exact h

/-- R160: COMPRESS in an unlocked ABSORBING state whose chain and next block have values. -/
theorem exec_compress_of_block {s : State} (hl : locked s = false) (hp : s.phase = .absorbing) {c : Chain} {b : Block}
    (hc : s.h = some c) (hb : blockAt s s.blk.toNat = .ok b) :
    exec .compress s = .next ((s.absorb (compress c b)).reply ⟨0, 0⟩) := by
  rcases execCompress_cases s with ⟨hrefused, -⟩ | ⟨-, -, ⟨hnone, -⟩ | ⟨f, hfault, -⟩ | ⟨c', b', hc', hb', h⟩⟩
  · simp [hl, hp] at hrefused
  · simp [hc] at hnone
  · simp [hb] at hfault
  · obtain rfl : c = c' := by simpa [hc] using hc'
    obtain rfl : b = b' := by simpa [hb] using hb'
    exact h

/-- R191: FINALIZE in an unlocked FINALIZED state without a digest. -/
theorem exec_finalize_of_chain {s : State} (hl : locked s = false) (hp : s.phase = .finalized)
    (hd : s.dvalid = false) {c : Chain} (hc : s.h = some c) :
    exec .finalize s = .next ((s.serialize c).reply ⟨0, 0⟩) := by
  rcases execFinalize_cases s with ⟨hrefused, -⟩ | ⟨-, -, -, ⟨hnone, -⟩ | ⟨c', hc', h⟩⟩
  · simp [hl, hp, hd] at hrefused
  · simp [hc] at hnone
  · obtain rfl : c = c' := by simpa [hc] using hc'
    exact h

theorem computing_start (s : State) : Computing s (s.start.reply ⟨0, 0⟩) [] 1 iv where
  inv := s.start_inv.reply _
  unlocked := rfl
  message := rfl
  chain := rfl
  noDigest := rfl
  capEff := rfl
  faultLog := rfl
  responses := rfl

section
variable {s t : State} {m : List Byte} {n : Nat} {c : Chain} (ht : Computing s t m n c)
include ht

theorem Computing.responses_append_zero : t.responses ++ [⟨0, 0⟩] = s.responses ++ List.replicate (n + 1) ⟨0, 0⟩ := by
  rw [ht.responses, List.append_assoc, ← List.replicate_succ']

theorem Computing.length_eq : m.length = t.len := by
  rw [← ht.message, ht.inv.length_message]

/-- R103: one byte more, while the buffer has room. -/
theorem Computing.push (hp : t.phase = .init) (hroom : m.length < s.capEff) (b : Byte) :
    ∃ u, exec (.push b) t = .next u ∧ u.phase = .init ∧ Computing s u (m ++ [b]) (n + 1) c := by
  rw [ht.length_eq, ← ht.capEff] at hroom
  exact ⟨_, exec_push_of_room ht.unlocked hp hroom b, hp,
    { ht with
      inv := (ht.inv.append hp hroom b).reply _
      message := by simp [Memory.write_of_cells ht.inv.messageCells, ht.message]
      responses := ht.responses_append_zero }⟩

theorem Computing.pushes (hp : t.phase = .init) {m' : List Byte} (hroom : (m ++ m').length ≤ s.capEff) :
    ∃ u, runAll (pushes m') t = .next u ∧ u.phase = .init ∧ Computing s u (m ++ m') (n + m'.length) c := by
  induction m' generalizing t m n with
  | nil => exact ⟨t, rfl, hp, by simpa using ht⟩
  | cons b m' ih =>
    simp only [List.length_append, List.length_cons] at hroom
    obtain ⟨u, hexec, hpu, hu⟩ := ht.push hp (by omega) b
    obtain ⟨v, hrun, hpv, hv⟩ := ih hu hpu (by simp; omega)
    refine ⟨v, (runAll_cons hexec).trans hrun, hpv, ?_⟩
    rw [List.append_assoc] at hv
    rwa [List.length_cons, Nat.add_comm m'.length, ← Nat.add_assoc]

/-- R105: the message is framed and no block is absorbed. -/
theorem Computing.pad (hp : t.phase = .init) :
    ∃ u, exec .pad t = .next u ∧ u.framed = true ∧ u.blk.toNat = 0 ∧ Computing s u m (n + 1) c :=
  ⟨_, exec_pad_of_init ht.unlocked hp, rfl, rfl,
    { ht with
      inv := (ht.inv.frame hp).reply _
      responses := ht.responses_append_zero }⟩

theorem Computing.nblk_eq (hf : t.framed = true) : t.nblk.toNat = blockCount m.length := by
  rw [ht.inv.nblk_toNat hf, ht.length_eq]

theorem Computing.phase_of_blk_lt (hf : t.framed = true) (hlt : t.blk.toNat < blockCount m.length) :
    t.phase = .absorbing := by
  refine (t.framed_iff.1 hf).resolve_right fun hp => ?_
  rw [← ht.nblk_eq hf, (ht.inv.finalized hp).1] at hlt
  exact Nat.lt_irrefl _ hlt

theorem Computing.phase_of_blk_eq (hf : t.framed = true) (heq : t.blk.toNat = blockCount m.length) :
    t.phase = .finalized := by
  refine (t.framed_iff.1 hf).resolve_left fun hp => ?_
  rw [← ht.nblk_eq hf] at heq
  exact Nat.ne_of_lt (ht.inv.absorbing hp).1 heq

/-- R160: the next block of the padded message goes into the chain. -/
theorem Computing.compressBlock (hf : t.framed = true) (hlt : t.blk.toNat < blockCount m.length) :
    ∃ u, exec .compress t = .next u ∧ u.framed = true ∧ u.blk.toNat = t.blk.toNat + 1 ∧
      Computing s u m (n + 1) (compress c (blockOf (padded m) t.blk.toNat)) := by
  have hp := ht.phase_of_blk_lt hf hlt
  have hblk : t.blk.toNat < t.nblk.toNat := by rwa [ht.nblk_eq hf]
  have hb := ht.inv.blockAt_eq hf hblk
  rw [ht.message] at hb
  refine ⟨_, exec_compress_of_block ht.unlocked hp ht.chain hb, ?_, ?_,
    { ht with
      inv := (ht.inv.absorb hp _).reply _
      chain := rfl
      responses := ht.responses_append_zero }⟩
  · rcases State.absorb_phase_cases hblk hp (compress c (blockOf (padded m) t.blk.toNat)) with ⟨h, -⟩ | ⟨h, -⟩
    · exact (State.framed_iff _).2 (.inl h)
    · exact (State.framed_iff _).2 (.inr h)
  · rw [State.reply_blk, State.absorb_blk]
    bv_omega

end

/-- R205: the rest of the blocks go into the chain, one COMPRESS each. -/
theorem Computing.absorbs {s t : State} {m : List Byte} {n i k : Nat} (hf : t.framed = true) (hblk : t.blk.toNat = i)
    (ht : Computing s t m n (chainAfter (padded m) i)) (hk : i + k ≤ blockCount m.length) :
    ∃ u, runAll (absorbs k) t = .next u ∧ u.framed = true ∧ u.blk.toNat = i + k ∧
      Computing s u m (n + k) (chainAfter (padded m) (i + k)) := by
  induction k generalizing t n i with
  | zero => exact ⟨t, rfl, hf, hblk, ht⟩
  | succ k ih =>
    obtain ⟨u, hexec, hfu, hblku, hu⟩ := ht.compressBlock hf (by omega)
    rw [hblk] at hblku hu
    obtain ⟨v, hrun, hfv, hblkv, hv⟩ := ih hfu hblku hu (by omega)
    rw [Nat.add_right_comm i] at hblkv hv
    rw [Nat.add_right_comm n] at hv
    exact ⟨v, (runAll_cons hexec).trans hrun, hfv, hblkv, hv⟩

end Sys2Proof.Machine

namespace Sys2Proof.Machine

/-- R191: FINALIZE after the last block gives the digest of the chain. -/
theorem Computing.finalize {s t : State} {m : List Byte} {n : Nat} {c : Chain} (ht : Computing s t m n c)
    (hp : t.phase = .finalized) :
    ∃ u, exec .finalize t = .next u ∧ u.dvalid = true ∧ u.digest = some (ser c) ∧ u.faultLog = s.faultLog ∧
      u.responses = s.responses ++ List.replicate (n + 1) ⟨0, 0⟩ :=
  ⟨_, exec_finalize_of_chain ht.unlocked hp ht.noDigest ht.chain, rfl, rfl, ht.faultLog, ht.responses_append_zero⟩

/-! Reading the digest (R80 `RDDIGEST`). -/

/-- The state after several responses. -/
def State.replies (s : State) (rs : List Response) : State := { s with responses := s.responses ++ rs }

theorem State.replies_reply (s : State) (rs : List Response) (r : Response) :
    (s.replies rs).reply r = s.replies (rs ++ [r]) := by
  simp [State.replies, State.reply]

section
variable {s : State} {d : Digest} (hv : s.dvalid = true) (hd : s.digest = some d)
include hv hd

/-- R36, R200: the numbers from 0x20 on read the digest's bytes. -/
theorem exec_rdreg_digest {k : Nat} (hk : k < 32) :
    exec (.rdreg (BitVec.ofNat 8 (0x20 + k))) s = .next (s.reply ⟨0, d[k].zeroExtend 32⟩) := by
  have hvalue : regValue s (.digest ⟨k, hk⟩) = .ok (d[k].zeroExtend 32) := by
    simp only [regValue, hd]
    rfl
  simp only [exec, execRdreg, regOfNumber_digest k hk, readIsMisuse, hv, hvalue, respond]
  rfl

theorem runAll_readDigest_take {n : Nat} (hn : n ≤ 32) :
    runAll ((List.range n).map fun k => .rdreg (BitVec.ofNat 8 (0x20 + k))) s =
      .next (s.replies ((d.toList.take n).map fun b => ⟨0, b.zeroExtend 32⟩)) := by
  induction n with
  | zero => simp [runAll, State.replies]
  | succ n ih =>
    have hlast := exec_rdreg_digest (s := s.replies ((d.toList.take n).map fun b => ⟨0, b.zeroExtend 32⟩)) hv hd
      (Nat.lt_of_succ_le hn)
    rw [List.range_succ, List.map_append, runAll_append (ih (by omega))]
    refine (runAll_cons hlast).trans (congrArg _ ?_)
    rw [State.replies_reply, List.take_succ_eq_append_getElem (by simpa using hn), List.map_append]
    rfl

theorem runAll_readDigest :
    runAll readDigest s = .next (s.replies (d.toList.map fun b => ⟨0, b.zeroExtend 32⟩)) := by
  have h := runAll_readDigest_take hv hd (Nat.le_refl 32)
  rwa [List.take_of_length_le (by simp)] at h

end

/-- R205: the pure hash runs over as many blocks as PAD frames. -/
theorem hashMessage_eq (m : List Byte) : hashMessage m = ser (chainAfter (padded m) (blockCount m.length)) := by
  rw [hashMessage, length_padded, Nat.mul_div_cancel_left _ (by decide)]

/-- R205: HASH m, command by command. -/
theorem runAll_hashCommands (s : State) {m : List Byte} (hroom : m.length ≤ s.capEff) :
    ∃ t, runAll (hashCommands m) s = .next t ∧
      t.dvalid = true ∧ t.digest = some (hashMessage m) ∧ t.faultLog = s.faultLog ∧
      t.responses = s.responses ++ List.replicate (m.length + blockCount m.length + 3) ⟨0, 0⟩ ++
        (hashMessage m).toList.map fun b => ⟨0, b.zeroExtend 32⟩ := by
  obtain ⟨t₁, hpushes, hp₁, ht₁⟩ := (computing_start s).pushes rfl (m' := m) hroom
  rw [List.nil_append] at ht₁
  obtain ⟨t₂, hpad, hf₂, hblk₂, ht₂⟩ := ht₁.pad hp₁
  obtain ⟨t₃, habsorbs, hf₃, hblk₃, ht₃⟩ := Computing.absorbs hf₂ hblk₂ ht₂ (k := blockCount m.length) (by omega)
  rw [Nat.zero_add] at hblk₃ ht₃
  obtain ⟨t₄, hfinalize, hv, hd, hlog, hresp⟩ := ht₃.finalize (ht₃.phase_of_blk_eq hf₃ hblk₃)
  rw [← hashMessage_eq] at hd
  have hinit : runAll (.init :: pushes m) s = .next t₁ := (runAll_cons (exec_init s)).trans hpushes
  have hframe : runAll (.pad :: absorbs (blockCount m.length)) t₁ = .next t₃ := (runAll_cons hpad).trans habsorbs
  refine ⟨t₄.replies ((hashMessage m).toList.map fun b => ⟨0, b.zeroExtend 32⟩), ?_, hv, hd, hlog, ?_⟩
  · rw [hashCommands, List.append_assoc, runAll_append hinit, runAll_append hframe, runAll_cons hfinalize]
    exact runAll_readDigest hv hd
  · have hcount : m.length + blockCount m.length + 3 = 1 + m.length + 1 + blockCount m.length + 1 := by omega
    rw [hcount, ← hresp]
    rfl

/-- Steps over an idle port on which commands were issued are the commands, one after the other. -/
theorem stepMany_issueAll {s t : State} {is : List Instr} (hport : s.port = []) (h : runAll is s = .next t) :
    stepMany is.length (s.issueAll is) = .next (t.setPort []) := by
  have hissue : s.issueAll is = s.setPort (is.map fun i => .command (encode i)) := by
    simp [State.issueAll, State.setPort, hport]
  rw [hissue]
  exact stepMany_of_runAll decodeOfEncodeIsTheCommand h

/-- Settles O55: no command reads the port, so the steps are `runAll_hashCommands`. -/
theorem hashCommandsComputeTheHash : Obligations.HashCommandsComputeTheHash := by
  intro s m hport hroom
  obtain ⟨t, hrun, hv, hd, hlog, hresp⟩ := runAll_hashCommands s hroom
  exact ⟨t.setPort [], stepMany_issueAll hport hrun, hv, hd, hlog, rfl, hresp⟩

/-! HASH of a message too long for the buffer. -/

/-- R103, R224: PUSH into a full buffer. -/
theorem exec_push_of_full {s : State} (hl : locked s = false) (hp : s.phase = .init) (hfull : s.capEff ≤ s.len)
    (b : Byte) : exec (.push b) s = .next (s.raised .inputTooLarge) := by
  rcases execPush_cases b s with ⟨hrefused, -⟩ | ⟨-, -, -, h⟩ | ⟨-, -, hroom, -⟩
  · simp [hl, hp] at hrefused
  · exact h
  · omega

theorem Computing.push_full {s t : State} {m : List Byte} {n : Nat} {c : Chain} (ht : Computing s t m n c)
    (hp : t.phase = .init) (hfull : m.length = s.capEff) (b : Byte) :
    exec (.push b) t = .next (t.raised .inputTooLarge) := by
  refine exec_push_of_full ht.unlocked hp ?_ b
  rw [ht.capEff, ← hfull, ht.length_eq]

/-- R233: what the lock refuses. -/
theorem exec_of_lockRefuses {s : State} (hl : locked s = true) {i : Instr} (hi : lockRefuses i = true) :
    exec i s = .next (s.raised .misuseError) := by
  cases i with
  | init => cases hi
  | rdreg r => cases hi
  | push b => exact if_pos hl
  | pad => exact if_pos hl
  | compress => exact if_pos hl
  | finalize => exact if_pos hl

/-- R36: a digest register has no value to read while DVALID = 0. -/
theorem exec_readDigest_of_not_dvalid {s : State} (hv : s.dvalid = false) {i : Instr} (hi : i ∈ readDigest) :
    exec i s = .next (s.raised .misuseError) := by
  obtain ⟨k, hk, rfl⟩ := List.mem_map.1 hi
  simp only [exec, execRdreg, regOfNumber_digest k (List.mem_range.1 hk), readIsMisuse, hv, raise]
  rfl

/-- While the core is locked and has no digest, every command the lock refuses and every read of the digest raises
MisuseError. -/
theorem runAll_refused {s : State} (hl : locked s = true) (hv : s.dvalid = false) {is : List Instr}
    (h : ∀ i ∈ is, lockRefuses i = true ∨ i ∈ readDigest) :
    ∃ t, runAll is s = .next t ∧ t.dvalid = false ∧ t.digest = s.digest ∧
      t.responses = s.responses ++ List.replicate is.length ⟨2, 0⟩ := by
  induction is generalizing s with
  | nil => exact ⟨s, rfl, hv, rfl, by simp⟩
  | cons i is ih =>
    obtain ⟨hi, his⟩ := List.forall_mem_cons.1 h
    have hexec : exec i s = .next (s.raised .misuseError) :=
      hi.elim (exec_of_lockRefuses hl) (exec_readDigest_of_not_dvalid hv)
    obtain ⟨t, hrun, hvt, hdt, hresp⟩ := ih (s := s.raised .misuseError) (by simp [locked]) (by simpa) his
    refine ⟨t, (runAll_cons hexec).trans hrun, hvt, by simpa using hdt, ?_⟩
    rw [hresp, State.raised_responses, List.append_assoc]
    rfl

/-- R80: behind the PUSH of any one byte, HASH m holds only commands that a lock or an invalid digest refuses. -/
theorem hashCommands_split (m₁ : List Byte) (b : Byte) (m₂ : List Byte) :
    ∃ rest, hashCommands (m₁ ++ b :: m₂) = (.init :: pushes m₁) ++ .push b :: rest ∧
      ∀ i ∈ rest, lockRefuses i = true ∨ i ∈ readDigest := by
  refine ⟨pushes m₂ ++ .pad :: absorbs (blockCount (m₁ ++ b :: m₂).length) ++ .finalize :: readDigest,
    by simp [hashCommands, pushes], fun i hi => ?_⟩
  simp only [pushes, absorbs, List.mem_append, List.mem_cons, List.mem_map, List.mem_replicate] at hi
  rcases hi with (⟨_, -, rfl⟩ | rfl | ⟨-, rfl⟩) | rfl | hread
  case inr.inr => exact .inr hread
  all_goals exact .inl rfl

/-- Settles O56: the buffer takes CAP_EFF bytes, the next PUSH locks the core, and everything behind it is refused. -/
theorem hashOfATooLongMessageGivesNoDigest : Obligations.HashOfATooLongMessageGivesNoDigest := by
  intro s m hport hlong
  obtain ⟨m₁, b, m₂, rfl, hm₁⟩ : ∃ m₁ b m₂, m = m₁ ++ b :: m₂ ∧ m₁.length = s.capEff :=
    ⟨m.take s.capEff, m[s.capEff], m.drop (s.capEff + 1), by simp, by simp; omega⟩
  obtain ⟨rest, hsplit, hrefused⟩ := hashCommands_split m₁ b m₂
  obtain ⟨t, hpushes, hp, ht⟩ := (computing_start s).pushes rfl (m' := m₁) hm₁.le
  obtain ⟨u, hrest, hv, hd, hresp⟩ := runAll_refused (s := t.raised .inputTooLarge) (by simp [locked])
    (by simp [ht.noDigest]) hrefused
  have hinit : runAll (.init :: pushes m₁) s = .next t := (runAll_cons (exec_init s)).trans hpushes
  have hrun : runAll (hashCommands (m₁ ++ b :: m₂)) s = .next u := by
    rw [hsplit, runAll_append hinit, runAll_cons (ht.push_full hp hm₁ b), hrest]
  have hcount : (hashCommands (m₁ ++ b :: m₂)).length - (s.capEff + 2) = rest.length := by
    simp [hsplit, pushes]
    omega
  refine ⟨u.setPort [], stepMany_issueAll hport hrun, hv, ?_, ?_⟩
  · calc u.digest = t.digest := hd.trans (t.raised_digest _)
      _ = none := ht.inv.digestPresent.2 ht.noDigest
  · rw [hcount, ← hm₁, Nat.add_comm m₁.length]
    calc u.responses = t.responses ++ [⟨3, 0⟩] ++ List.replicate rest.length ⟨2, 0⟩ :=
          hresp.trans (congrArg (· ++ _) (t.raised_responses _))
      _ = _ := by rw [ht.responses]

end Sys2Proof.Machine

namespace Sys2Proof.Machine

/-! PUSH and PAD (R103, R105): when they refuse, what they write, and what they leave unchanged. -/

/-- R103: PUSH in any phase but INIT. -/
theorem exec_push_of_not_init {s : State} (hp : s.phase ≠ .init) (b : Byte) :
    exec (.push b) s = .next (s.raised .misuseError) := by
  rcases execPush_cases b s with ⟨-, h⟩ | ⟨-, hinit, -⟩ | ⟨-, hinit, -⟩
  · exact h
  · exact absurd hinit hp
  · exact absurd hinit hp

/-- R105: PAD in any phase but INIT. -/
theorem exec_pad_of_not_init {s : State} (hp : s.phase ≠ .init) : exec .pad s = .next (s.raised .misuseError) := by
  rcases execPad_cases s with ⟨-, h⟩ | ⟨-, hinit, -⟩
  · exact h
  · exact absurd hinit hp

/-- Settles O12: the lock, the phase and the room in the buffer tell the branches of PUSH apart. -/
theorem pushAppendsTheByteOrRaises : Obligations.PushAppendsTheByteOrRaises := by
  intro s b
  refine ⟨fun hl => exec_of_lockRefuses hl rfl, fun _ hp => exec_push_of_not_init hp b, ?_, ?_⟩
  · rw [← s.len_eq_div, ← s.capEff_eq]
    exact fun hl hp hfull => exec_push_of_full hl hp hfull b
  · rw [← s.len_eq_div, ← s.capEff_eq]
    exact fun hl hp hroom => exec_push_of_room hl hp hroom b

/-- Settles O13: LEN is below 2^61, so the block count fits NBLK. -/
theorem padFramesTheMessageOrRaises : Obligations.PadFramesTheMessageOrRaises := by
  intro s
  refine ⟨fun hl => exec_of_lockRefuses hl rfl, fun _ hp => exec_pad_of_not_init hp, fun hl hp => ?_⟩
  exact ⟨_, exec_pad_of_init hl hp, s.startPadding_frame_nblk_toNat, rfl⟩

/-- Settles O18: an exception writes no field of the frame, and an accepted byte goes to position LEN. -/
theorem pushFrame : Obligations.PushFrame := by
  intro s t b h
  change execPush b s = _ at h
  rcases execPush_cases b s with ⟨-, e⟩ | ⟨-, -, -, e⟩ | ⟨-, -, -, e⟩ <;> rw [h] at e <;> cases e
  · simp
  · simp
  · simp +contextual [Memory.read_write_other]

/-- Settles O19: MisuseError sets E_MISUSE alone, and framing the message writes PHASE, NBLK and BLK alone. -/
theorem padFrame : Obligations.PadFrame := by
  intro s t h
  change execPad s = _ at h
  rcases execPad_cases s with ⟨-, e⟩ | ⟨-, -, e⟩ <;> rw [h] at e <;> cases e
  · simp
  · simp

/-- R106: outside INIT only INIT writes the message and leads to the phase INIT. -/
theorem exec_keeps_message {i : Instr} {s t : State} (h : exec i s = .next t) (hp : s.phase ≠ .init)
    (hi : i ≠ .init) : t.msg = s.msg ∧ t.lcnt = s.lcnt ∧ t.phase ≠ .init := by
  rcases exec_next_cases h with ⟨e, rfl, -⟩ | ⟨rfl, -⟩ | ⟨b, -, -, hinit, -⟩ | ⟨-, -, hinit, -⟩ |
    ⟨c, b, -, -, -, -, -, rfl⟩ | ⟨c, -, -, -, -, -, rfl⟩ | ⟨r, reg, d, -, -, -, -, rfl⟩
  · simpa using hp
  · exact absurd rfl hi
  · exact absurd hinit hp
  · exact absurd hinit hp
  · refine ⟨rfl, rfl, ?_⟩
    rw [State.reply_phase, State.absorb_phase]
    split
    · decide
    · exact hp
  · exact ⟨rfl, rfl, hp⟩
  · exact ⟨rfl, rfl, hp⟩

/-- Settles O32: an Illegal word raises an exception, and the commands keep the message by `exec_keeps_message`. -/
theorem messageIsFixedAfterPad : Obligations.MessageIsFixedAfterPad := by
  intro w s t hrun hp hinit
  rcases runWord_next_cases hrun with ⟨i, hdec, hexec⟩ | ⟨why, -, rfl⟩
  · rw [hdec] at hinit
    exact exec_keeps_message hexec hp (hinit <| congrArg _ ·)
  · simpa using hp

end Sys2Proof.Machine

namespace Sys2Proof.Machine

/-! The padding in closed form (R102): its length in numbers, the message in front and the length field behind. -/

/-- R107: the document's count, the ceiling of (8n + 65) / 512. -/
theorem blockCount_eq_ceil (n : Nat) : blockCount n = (8 * n + 65 + 511) / 512 := by
  unfold blockCount
  omega

/-- Settles O45: the two counts agree as numbers, and the padded message fills its blocks. -/
theorem blockCountMatchesTheDocument : Obligations.BlockCountMatchesTheDocument :=
  fun m => ⟨blockCount_eq_ceil m.length, length_padded m⟩

theorem take_padded (m : List Byte) : (padded m).take m.length = m := by
  simp [padded]

/-- R13: byte k of `BE64(n)` as a number. -/
theorem be64_ofNat {n : Nat} (hn : n < 2 ^ 64) (k : Nat) :
    be64 (BitVec.ofNat 64 n) k = BitVec.ofNat 8 (n / 2 ^ (56 - 8 * k)) := by
  rw [be64, BitVec.extractLsb', BitVec.toNat_ofNat, Nat.mod_eq_of_lt hn, Nat.shiftRight_eq_div_pow]

/-- Settles O44: the length is 64 blockCount n, and 8n fits the length field. -/
theorem paddingPostconditions : Obligations.PaddingPostconditions := by
  intro m hm
  rw [length_padded]
  have hcount : blockCount m.length = (m.length + 8) / 64 + 1 := rfl
  refine ⟨by omega, by omega, by omega, by omega, by omega, padded_terminator, fun k hk => ?_, take_padded m⟩
  rw [padded_lengthField hk, be64_ofNat (by omega)]

/-! The framer (R110, R112): its range, and its bytes by position. -/

/-- R114: no byte at or past P. -/
theorem padByte_of_paddedLength_le {s : State} {p : Nat} (h : s.paddedLength ≤ p) :
    padByte s p = .error .framerOutOfRange := if_pos (.inr h)

/-- R110: no byte unless a message is framed. -/
theorem padByte_of_not_framed {s : State} (h : s.framed = false) (p : Nat) :
    padByte s p = .error .framerOutOfRange := if_pos (.inl h)

/-- R114: no block at or past NBLK. -/
theorem blockAt_of_nblk_le {s : State} {i : Nat} (h : s.nblk.toNat ≤ i) :
    blockAt s i = .error .framerOutOfRange := if_neg (Nat.not_lt_of_le h)

/-- Settles O42: the guards of the framer. -/
theorem framerStopsOutsideItsRange : Obligations.FramerStopsOutsideItsRange := by
  intro s n
  refine ⟨padByte_of_paddedLength_le, blockAt_of_nblk_le, fun habsorbing hfinalized => ?_⟩
  exact padByte_of_not_framed (by simp [State.framed, habsorbing, hfinalized]) n

section
variable {s : State} (hs : s.Inv) (hf : s.framed = true)
include hs hf

/-- R107, R112: the padded message fills the framed blocks. -/
theorem State.Inv.length_padded_message : (padded (s.msg.map Prod.snd)).length = 64 * s.nblk.toNat := by
  rw [length_padded, hs.length_message, hs.nblk_toNat hf]

/-- R110: "LEN < P - 8 always holds". -/
theorem State.Inv.len_lt_lengthField : s.len < 64 * s.nblk.toNat - 8 := by
  have hz := add_zeroCount s.len
  rw [hs.nblk_toNat hf]
  omega

end

/-- Settles O43: `State.Inv.padByte_eq` and `State.Inv.blockAt_eq`, with every position below P in the closed form. -/
theorem framerIsThePaddingInClosedForm : Obligations.FramerIsThePaddingInClosedForm := by
  intro s hs hp
  have hf := s.framed_iff.2 hp
  have hlen := hs.length_padded_message hf
  refine ⟨hlen, fun p hp => ?_, fun i hi => hs.blockAt_eq hf hi⟩
  have hbyte := List.getElem?_eq_getElem (hlen ▸ hp)
  exact ⟨_, hbyte, hs.padByte_eq hf hp hbyte⟩

/-- Settles O41: the framer answers the byte of the closed form, which is known for each kind of position. -/
theorem framerPlacesEveryByte : Obligations.FramerPlacesEveryByte := by
  intro s p hs hphase hp
  have hf := s.framed_iff.2 hphase
  have hroom := hs.len_lt_lengthField hf
  have hlen := hs.length_message
  have hcount : s.nblk.toNat = blockCount (s.msg.map Prod.snd).length := by rw [hs.nblk_toNat hf, hlen]
  have closedForm {b : Byte} : (padded (s.msg.map Prod.snd))[p]? = some b → padByte s p = .ok b := hs.padByte_eq hf hp
  refine ⟨hroom, fun hlt => ?_, ?_, fun hgt hlt => ?_, fun k hk => ?_⟩
  · obtain ⟨b, hb, -⟩ := msgRead_ok hs.messageCells hlt
    refine ⟨b, (Memory.read_of_cells hs.messageCells p).trans hb, closedForm ?_⟩
    rw [padded_message (hlen ▸ hlt), hb]
  · rintro rfl
    exact closedForm (hlen ▸ padded_terminator)
  · exact closedForm (padded_zeros (hlen ▸ hgt) (hcount ▸ hlt))
  · refine closedForm ?_
    rw [hk, hcount, padded_lengthField (by omega), hlen, ← hs.lcnt_eq_ofNat]
    rfl

end Sys2Proof.Machine

namespace Sys2Proof.Machine

/-! COMPRESS (R160): when it refuses, what it writes, and what it leaves unchanged. -/

/-- R160: COMPRESS in any phase but ABSORBING. -/
theorem exec_compress_of_not_absorbing {s : State} (hp : s.phase ≠ .absorbing) :
    exec .compress s = .next (s.raised .misuseError) := by
  rcases execCompress_cases s with ⟨-, h⟩ | ⟨-, habsorbing, -⟩
  · exact h
  · exact absurd habsorbing hp

/-- R160: the phase after a block of an ABSORBING state, with the block count in numbers. -/
theorem State.absorb_phase_of_absorbing {s : State} (hlt : s.blk.toNat < s.nblk.toNat) (hp : s.phase = .absorbing)
    (c : Chain) :
    (s.absorb c).phase = if s.blk.toNat + 1 = s.nblk.toNat then .finalized else .absorbing := by
  have hlast : s.blk + 1 = s.nblk ↔ s.blk.toNat + 1 = s.nblk.toNat := by bv_omega
  simp only [State.absorb_phase, hlast, hp]

/-- Settles O14: an ABSORBING state of the invariant has a chain and a block BLK, and BLK < NBLK leaves BLK room for
one more. -/
theorem compressAbsorbsTheNextBlockOrRaises : Obligations.CompressAbsorbsTheNextBlockOrRaises := by
  intro s
  refine ⟨fun hl => exec_of_lockRefuses hl rfl, fun _ hp => exec_compress_of_not_absorbing hp, fun hs hl hp => ?_⟩
  have hlt := (hs.absorbing hp).1
  obtain ⟨c, hc⟩ : ∃ c, s.h = some c := Option.ne_none_iff_exists'.1 fun hnone => by
    simpa [hp] using hs.chainPresent.1 hnone
  obtain ⟨b, hb, hbytes⟩ := blockAt_ok (s.framed_iff.2 (.inl hp)) hs.messageCells hlt
  refine ⟨c, b, hc, hbytes, ?_⟩
  rw [exec_compress_of_block hl hp hc hb, ← State.absorb_phase_of_absorbing hlt hp (compress c b)]
  rfl

/-- Settles O20: MisuseError sets E_MISUSE alone, and absorbing a block writes H, BLK and PHASE alone. -/
theorem compressFrame : Obligations.CompressFrame := by
  intro s t h
  change execCompress s = _ at h
  rcases execCompress_cases s with ⟨-, e⟩ | ⟨-, -, ⟨-, e⟩ | ⟨f, -, -, e⟩ | ⟨c, b, -, -, e⟩⟩ <;> rw [h] at e <;> cases e
  · simp
  · simp

end Sys2Proof.Machine

namespace Sys2Proof.Machine

/-! The bit-level primitives (R130 to R138). -/

/-- R130: below 32, `rotr` is the library's rotation. -/
theorem rotr_eq_rotateRight (x : Word) {n : Nat} (hn : n < 32) : rotr x n = x.rotateRight n := by
  rw [rotr, BitVec.rotateRight_def, Nat.mod_eq_of_lt hn]

/-- R130: bit i of a rotation, the positions counted modulo 32. -/
theorem getLsbD_rotr (x : Word) {n i : Nat} (hn : n < 32) (hi : i < 32) :
    (rotr x n).getLsbD i = x.getLsbD ((i + n) % 32) := by
  rw [rotr_eq_rotateRight x hn, BitVec.getLsbD_rotateRight_of_lt hn, Bool.cond_decide]
  split
  next hlt =>
    rw [Nat.mod_eq_of_lt (by omega), Nat.add_comm]
  next hge =>
    rw [decide_eq_true hi, Bool.true_and]
    congr 1
    omega

/-- R131: bit i of a shift, zeros coming in above bit 31. -/
theorem getLsbD_shiftRight (x : Word) (n i : Nat) :
    (x >>> n).getLsbD i = if i + n ≤ 31 then x.getLsbD (i + n) else false := by
  rw [BitVec.getLsbD_ushiftRight, Nat.add_comm]
  split
  next => rfl
  next habove => exact BitVec.getLsbD_of_ge x _ (by omega)

/-- Settles O46: the bits of `rotr` are those of the library's rotation. -/
theorem rotationAndShiftBits : Obligations.RotationAndShiftBits := fun x n i hn hi =>
  ⟨getLsbD_rotr x (Nat.lt_succ_of_le hn) (Nat.lt_succ_of_le hi), getLsbD_shiftRight x n i⟩

/-- Settles O47: every amount of R133 to R136 is below 32. -/
theorem sigmaFunctionsRotate : Obligations.SigmaFunctionsRotate := by
  intro x
  simp [sig0, sig1, ep0, ep1, rotr_eq_rotateRight]

/-- R137: each bit of CH chooses. -/
theorem getLsbD_ch (x y z : Word) {i : Nat} (hi : i < 32) :
    (ch x y z).getLsbD i = if x.getLsbD i then y.getLsbD i else z.getLsbD i := by
  have hbit : (ch x y z).getLsbD i = ((x.getLsbD i && y.getLsbD i) ^^ (!x.getLsbD i && z.getLsbD i)) := by
    simp [ch, hi]
  rw [hbit]
  cases x.getLsbD i <;> simp

/-- R138: each bit of MAJ in the three input bits. -/
theorem getLsbD_maj (x y z : Word) (i : Nat) :
    (maj x y z).getLsbD i =
      ((x.getLsbD i && y.getLsbD i) ^^ (x.getLsbD i && z.getLsbD i) ^^ (y.getLsbD i && z.getLsbD i)) := by
  simp [maj]

/-- R138: the formula of MAJ on single bits is the majority. -/
theorem xor_ands_iff_majority (a b c : Bool) :
    ((a && b) ^^ (a && c) ^^ (b && c)) = true ↔ 2 ≤ a.toNat + b.toNat + c.toNat := by
  revert a b c
  decide

/-- Settles O48: bit by bit, `getLsbD_ch` and `getLsbD_maj`. -/
theorem chooseAndMajorityBits : Obligations.ChooseAndMajorityBits := by
  intro x y z i hi
  refine ⟨getLsbD_ch x y z hi, ?_⟩
  rw [getLsbD_maj]
  exact xor_ands_iff_majority _ _ _

end Sys2Proof.Machine

namespace Sys2Proof.Machine

/-! The schedule (R145, R146): its words in every expansion of it, and its 16 most recent words (R148). -/

/-- R52: the big-endian word of four bytes, as a number. -/
theorem wordOfBytes_toNat (b0 b1 b2 b3 : Byte) :
    (wordOfBytes b0 b1 b2 b3).toNat = b0.toNat * 2 ^ 24 + b1.toNat * 2 ^ 16 + b2.toNat * 2 ^ 8 + b3.toNat := by
  have append_toNat {n : Nat} (x : BitVec n) (y : Byte) : (x ++ y).toNat = x.toNat * 2 ^ 8 + y.toNat := by
    rw [BitVec.toNat_append, ← Nat.shiftLeft_add_eq_or_of_lt y.isLt, Nat.shiftLeft_eq]
  simp only [wordOfBytes, append_toNat]
  omega

/-- R146: a longer expansion has the words of a shorter one. -/
theorem expand_getElem_of_le (b : Block) {k m t : Nat} (hkm : k ≤ m) (ht : t < 16 + k) :
    (expand b m)[t] = (expand b k)[t] := by
  obtain ⟨d, rfl⟩ := Nat.exists_eq_add_of_le hkm
  exact expand_getElem_add b k d t ht

/-- R147: W[t] is word t of every expansion that has reached it. -/
theorem sched_getElem (b : Block) {k t : Nat} (hk : k ≤ 48) (ht : t < 16 + k) :
    (sched b)[t] = (expand b k)[t] := expand_getElem_of_le b hk ht

/-- Settles O49: the first 16 words are loaded before any expansion. -/
theorem scheduleLoadsBigEndianWords : Obligations.ScheduleLoadsBigEndianWords := by
  intro b t ht
  have hload : (sched b)[t] = (loadWords b)[t] := sched_getElem b (Nat.zero_le 48) ht
  rw [hload, loadWords_getElem, wordOfBytes_toNat]

/-- Settles O50: word t = 16 + k is the one that expansion k + 1 adds to the words before it. -/
theorem scheduleFollowsTheRecurrence : Obligations.ScheduleFollowsTheRecurrence := by
  intro b t hlo hhi
  obtain ⟨k, rfl⟩ := Nat.exists_eq_add_of_le hlo
  have earlier {i : Nat} (hi : i < 16 + k) : (sched b)[i] = (expand b k)[i] := sched_getElem b (by omega) hi
  rw [sched_getElem b (k := k + 1) (by omega) (by omega), expand_getElem_last, earlier, earlier, earlier, earlier]
  rfl

/-- R148: the words W[t] .. W[t + 15], of the schedule continued past W[63]. -/
def scheduleWindow (b : Block) (t : Nat) : Vector Word 16 := Vector.ofFn fun i => (expand b t)[t + i.val]

theorem scheduleWindow_getElem (b : Block) (t : Nat) {i : Nat} (hi : i < 16) :
    (scheduleWindow b t)[i] = (expand b t)[t + i] := by
  simp [scheduleWindow]

theorem scheduleWindow_zero (b : Block) : scheduleWindow b 0 = loadWords b := by
  ext i hi
  simp [scheduleWindow_getElem, expand]

/-- R148: the front of the window in round t is W[t]. -/
theorem scheduleWindow_front (b : Block) {t : Nat} (ht : t < 64) : (scheduleWindow b t)[0] = (sched b)[t] := by
  rw [scheduleWindow_getElem]
  rcases Nat.le_total t 48 with hle | hge
  · exact (sched_getElem b hle (by omega)).symm
  · exact expand_getElem_of_le b hge ht

/-- R148: the word that enters the window is the next one of the recurrence. -/
theorem windowNext_scheduleWindow (b : Block) (t : Nat) : windowNext (scheduleWindow b t) = nextWord (expand b t) := by
  have index (i : Nat) (hi : i ≤ 16) : 16 + t - i = t + (16 - i) := by omega
  simp [windowNext, nextWord, scheduleWindow_getElem, index]

/-- R148: the words that stay in the window move one place to the front. -/
theorem windowShift_getElem (w : Vector Word 16) {i : Nat} (hi : i < 15) : (windowShift w)[i] = w[i + 1] := by
  interval_cases i <;> rfl

theorem windowShift_getElem_last (w : Vector Word 16) : (windowShift w)[15] = windowNext w := rfl

theorem windowShift_scheduleWindow (b : Block) (t : Nat) :
    windowShift (scheduleWindow b t) = scheduleWindow b (t + 1) := by
  refine Vector.ext fun i hi => ?_
  rw [scheduleWindow_getElem]
  rcases Nat.lt_or_ge i 15 with hlt | hge
  · rw [windowShift_getElem _ hlt, scheduleWindow_getElem, expand_getElem_succ b t _ (by omega)]
    congr 1
    omega
  · obtain rfl : i = 15 := by omega
    rw [windowShift_getElem_last, windowNext_scheduleWindow, ← expand_getElem_last]
    congr 1
    omega

end Sys2Proof.Machine

namespace Sys2Proof.Machine

/-! The rounds of a compression (R152 to R155), and the engines that run them (R148, R161). -/

section
variable (c : Chain) (b : Block)

/-- R161: t round steps after the load step, the engine holds the schedule, the working variables of t rounds and
the round counter. -/
theorem stepTimes_round_load {t : Nat} (ht : t ≤ 64) :
    stepTimes Engine.round t (Engine.load c b) = ⟨sched b, runRounds (sched b) (loadWorking c) t ht, t⟩ := by
  induction t with
  | zero => rfl
  | succ t ih =>
    rw [stepTimes_succ, ih (by omega), Engine.round, dif_pos (show t < 64 from ht)]
    rfl

/-- R148: the same with the 16 most recent words of the schedule in place of the schedule. -/
theorem stepTimes_round_windowLoad {t : Nat} (ht : t ≤ 64) :
    stepTimes WindowEngine.round t (WindowEngine.load c b) =
      ⟨scheduleWindow b t, runRounds (sched b) (loadWorking c) t ht, t⟩ := by
  induction t with
  | zero => rw [scheduleWindow_zero]; rfl
  | succ t ih =>
    rw [stepTimes_succ, ih (by omega), WindowEngine.round, dif_pos (show t < 64 from ht)]
    simp only [windowShift_scheduleWindow, scheduleWindow_front b (show t < 64 from ht), runRounds_succ]

end

/-- Settles O52: after 64 round steps the engine holds the working variables that `compress` adds to H. -/
theorem microStepsGiveCompress : Obligations.MicroStepsGiveCompress := by
  intro c b
  rw [microCompress, stepTimes_round_load c b (Nat.le_refl 64)]
  rfl

/-- Settles O53: the window follows the schedule, so every round reads the same word. -/
theorem sixteenWordExpanderGivesCompress : Obligations.SixteenWordExpanderGivesCompress := by
  intro c b
  refine ⟨?_, fun t ht => ?_⟩
  · rw [windowCompress, stepTimes_round_windowLoad c b (Nat.le_refl 64)]
    rfl
  · simp only [stepTimes_round_windowLoad c b (Nat.le_of_lt ht), scheduleWindow_front b ht]

/-- R161: one round step of the engine is one round of R150, with K[t] and W[t]. -/
theorem stepTimes_round_load_succ (c : Chain) (b : Block) {t : Nat} (ht : t < 64) :
    (stepTimes Engine.round (t + 1) (Engine.load c b)).v =
      roundStep (stepTimes Engine.round t (Engine.load c b)).v (kRom ⟨t, ht⟩) (sched b)[t] := by
  rw [stepTimes_round_load c b ht, stepTimes_round_load c b (Nat.le_of_lt ht), runRounds_succ]

/-- Settles O51: the sequence is the working variables of the micro-step view, one round per step. -/
theorem compressIsSixtyFourRoundsAndTheSum : Obligations.CompressIsSixtyFourRoundsAndTheSum := by
  intro hv b
  refine ⟨fun t => (stepTimes Engine.round t (Engine.load hv b)).v, rfl, fun t ht => ⟨_, _, rfl, rfl, ?_⟩, ?_⟩
  · exact stepTimes_round_load_succ hv b ht
  · rw [← microStepsGiveCompress hv b]
    rfl

/-- Settles O60: the ROM reads the table row by row. -/
theorem roundConstantsAreThePrintedTable : Obligations.RoundConstantsAreThePrintedTable := by
  refine ⟨?_, ?_, ?_, ?_, ?_, ?_, ?_, ?_, ?_, ?_, ?_, ?_, ?_, ?_, ?_, ?_⟩ <;> rfl

end Sys2Proof.Machine

namespace Sys2Proof.Machine

/-! INIT (R181): what it writes and what it leaves unchanged. -/

/-- Settles O11: `State.start` writes each of these fields, and `iv` is the eight literals. -/
theorem initStartsAFreshComputation : Obligations.InitStartsAFreshComputation := exec_init

/-- Settles O17: `State.start` leaves the configuration and the model's records, and the response is (0, 0). -/
theorem initFrame : Obligations.InitFrame := by
  intro s t h
  obtain rfl := respond_eq_next_iff.1 h
  exact ⟨rfl, rfl, rfl, _, rfl⟩

/-! FINALIZE (R191): when it refuses, what it writes, and what it leaves unchanged. -/

/-- R23: outside IDLE H has a value. -/
theorem State.Inv.exists_chain {s : State} (hs : s.Inv) (hp : s.phase ≠ .idle) : ∃ c, s.h = some c :=
  Option.ne_none_iff_exists'.1 (hp <| hs.chainPresent.1 ·)

/-- R191: FINALIZE in any phase but FINALIZED. -/
theorem exec_finalize_of_not_finalized {s : State} (hp : s.phase ≠ .finalized) :
    exec .finalize s = .next (s.raised .misuseError) := by
  rcases execFinalize_cases s with ⟨-, h⟩ | ⟨-, hfinalized, -⟩
  · exact h
  · exact absurd hfinalized hp

/-- R191: a second FINALIZE. -/
theorem exec_finalize_of_dvalid {s : State} (hd : s.dvalid = true) :
    exec .finalize s = .next (s.raised .misuseError) := by
  rcases execFinalize_cases s with ⟨-, h⟩ | ⟨-, -, hnone, -⟩
  · exact h
  · simp [hd] at hnone

/-- Settles O15: the lock, the phase and DVALID tell the branches of FINALIZE apart, and a FINALIZED state of the
invariant has a chain. -/
theorem finalizeSerializesTheDigestOrRaises : Obligations.FinalizeSerializesTheDigestOrRaises := by
  intro s
  refine ⟨fun hl => exec_of_lockRefuses hl rfl, fun _ hp => exec_finalize_of_not_finalized hp,
    fun _ _ hd => exec_finalize_of_dvalid hd, fun hs hl hp hd => ?_⟩
  obtain ⟨c, hc⟩ := hs.exists_chain (by simp [hp])
  exact ⟨c, hc, exec_finalize_of_chain hl hp hd hc⟩

/-- Settles O21: MisuseError sets E_MISUSE alone, and serializing writes DIGEST and DVALID alone. -/
theorem finalizeFrame : Obligations.FinalizeFrame := by
  intro s t h
  change execFinalize s = _ at h
  rcases execFinalize_cases s with ⟨-, e⟩ | ⟨-, -, -, ⟨-, e⟩ | ⟨c, -, e⟩⟩ <;> rw [h] at e <;> cases e
  · simp
  · simp

/-! The serializer (R190). -/

/-- R190: byte k of word j stands at position 4j + k of the digest. -/
theorem ser_getElem (hv : Chain) {j k : Nat} (hj : j < 8) (hk : k < 4) : (ser hv)[4 * j + k] = be32 hv[j] k := by
  have hword : (4 * j + k) / 4 = j := by omega
  have hbyte : (4 * j + k) % 4 = k := by omega
  simp [ser, hword, hbyte]

/-- R13, R52: the four bytes of a word, most significant first, make up the word. -/
theorem wordOfBytes_be32 (w : Word) : wordOfBytes (be32 w 0) (be32 w 1) (be32 w 2) (be32 w 3) = w := by
  refine BitVec.eq_of_toNat_eq ?_
  have := w.isLt
  rw [wordOfBytes_toNat]
  simp only [be32, BitVec.extractLsb'_toNat, Nat.shiftRight_eq_div_pow]
  omega

/-- Settles O54: `ser` places the bytes of `be32`, which `wordOfBytes` puts together again. -/
theorem serializerIsBigEndian : Obligations.SerializerIsBigEndian := by
  intro hv j hj
  refine ⟨fun k hk => ser_getElem hv hj hk, (wordOfBytes_be32 hv[j]).symm.trans ?_⟩
  rw [← ser_getElem hv hj (k := 0) (by decide), ← ser_getElem hv hj (k := 1) (by decide),
    ← ser_getElem hv hj (k := 2) (by decide), ← ser_getElem hv hj (k := 3) (by decide)]
  rfl

/-! DIGEST once DVALID = 1 (R192). -/

/-- R192: DVALID = 1 only in FINALIZED, where PUSH, PAD, COMPRESS and a second FINALIZE raise MisuseError. -/
theorem exec_keeps_digest {i : Instr} {s t : State} (hs : s.Inv) (hd : s.dvalid = true) (h : exec i s = .next t)
    (hi : i ≠ .init) : t.digest = s.digest ∧ t.dvalid = true ∧ t.h = s.h := by
  have hp := hs.digestPhase hd
  rcases exec_next_cases h with ⟨e, rfl, -⟩ | ⟨rfl, -⟩ | ⟨b, -, -, hinit, -⟩ | ⟨-, -, hinit, -⟩ |
    ⟨c, b, -, -, habsorbing, -⟩ | ⟨c, -, -, -, hnone, -⟩ | ⟨r, reg, d, -, -, -, -, rfl⟩
  · simpa using hd
  · exact absurd rfl hi
  · simp [hp] at hinit
  · simp [hp] at hinit
  · simp [hp] at habsorbing
  · simp [hd] at hnone
  · exact ⟨rfl, hd, rfl⟩

/-- Settles O39: an Illegal word raises an exception, the commands keep the digest by `exec_keeps_digest`, and the
invariant says that it is Ser(H). -/
theorem digestIsKeptUntilInit : Obligations.DigestIsKeptUntilInit := by
  intro w s t hs hd hrun hinit
  have kept : t.digest = s.digest ∧ t.dvalid = true ∧ t.h = s.h := by
    rcases runWord_next_cases hrun with ⟨i, hdec, hexec⟩ | ⟨why, -, rfl⟩
    · rw [hdec] at hinit
      exact exec_keeps_digest hs hd hexec (hinit <| congrArg _ ·)
    · simpa using hd
  obtain ⟨hdigest, hdvalid, hh⟩ := kept
  obtain ⟨c, hc⟩ := hs.exists_chain (by simp [hs.digestPhase hd])
  refine ⟨hdigest, hdvalid, hh, c, hh.trans hc, ?_⟩
  rw [hdigest, hs.digestIsSer hd, hc]
  rfl

end Sys2Proof.Machine

namespace Sys2Proof.Machine

/-! RDREG (R200): which register a number names, and what a read answers. -/

/-- R200: RDREG of a number without a register. -/
theorem exec_rdreg_of_no_register {r : Byte} (hr : regOfNumber r = none) (s : State) :
    exec (.rdreg r) s = .next (s.raised .illegalCommand) := by
  simp only [exec, execRdreg, hr, raise]

/-- R200: RDREG of a register whose read is a misuse. -/
theorem exec_rdreg_of_misuse {r : Byte} {reg : Reg} (hr : regOfNumber r = some reg) {s : State}
    (hm : readIsMisuse s reg = true) : exec (.rdreg r) s = .next (s.raised .misuseError) := by
  simp only [exec, execRdreg, hr, hm, raise, if_true]

/-- R200: RDREG of a register that has a value to read. -/
theorem exec_rdreg_of_value {r : Byte} {reg : Reg} (hr : regOfNumber r = some reg) {s : State}
    (hm : readIsMisuse s reg = false) {d : Word} (hd : regValue s reg = .ok d) :
    exec (.rdreg r) s = .next (s.reply ⟨0, d⟩) := by
  simp only [exec, execRdreg, hr, hm, hd, respond, Bool.false_eq_true, if_false]

/-- R36: the numbers 0x0F to 0x1F and 0x40 to 0xFF name no register. -/
theorem regOfNumber_eq_none {r : Byte} (hr : (0x0F ≤ r.toNat ∧ r.toNat ≤ 0x1F) ∨ 0x40 ≤ r.toNat) :
    regOfNumber r = none := by
  rw [regOfNumber_eq_none_iff]
  simpa [unassignedNumber] using hr

/-- R36: the numbers up to 0x07 name a word of H. -/
theorem exists_regOfNumber_eq_chain {r : Byte} (hr : r.toNat ≤ 0x07) : ∃ j, regOfNumber r = some (.chain j) :=
  ⟨⟨r.toNat, Nat.lt_succ_of_le hr⟩, dif_pos _⟩

/-- R36: the numbers 0x20 to 0x3F name a byte of DIGEST. -/
theorem exists_regOfNumber_eq_digest {r : Byte} (hlo : 0x20 ≤ r.toNat) (hhi : r.toNat ≤ 0x3F) :
    ∃ k, regOfNumber r = some (.digest k) := by
  have hk : r.toNat - 0x20 < 32 := by omega
  have hr : BitVec.ofNat 8 (0x20 + (r.toNat - 0x20)) = r := by
    rw [Nat.add_sub_cancel' hlo, BitVec.ofNat_toNat, BitVec.setWidth_eq]
  exact ⟨_, hr ▸ regOfNumber_digest _ hk⟩

/-- Settles O16: the number names the register, and the invariant gives H and DIGEST a value outside the misuses. -/
theorem rdregReturnsTheRegisterOrRaises : Obligations.RdregReturnsTheRegisterOrRaises := by
  intro s
  refine ⟨fun r hr => exec_rdreg_of_no_register (regOfNumber_eq_none hr) s, fun r hr hp => ?_,
    fun r ⟨hlo, hhi⟩ hd => ?_, fun j hj hs hp => ?_, exec_rdreg_of_value rfl rfl rfl,
    exec_rdreg_of_value rfl rfl rfl, exec_rdreg_of_value rfl rfl rfl, exec_rdreg_of_value rfl rfl rfl,
    exec_rdreg_of_value rfl rfl rfl, exec_rdreg_of_value rfl rfl rfl, exec_rdreg_of_value rfl rfl rfl,
    fun k hk hs hd => ?_⟩
  · obtain ⟨j, hreg⟩ := exists_regOfNumber_eq_chain hr
    exact exec_rdreg_of_misuse hreg (by simp [readIsMisuse, hp])
  · obtain ⟨k, hreg⟩ := exists_regOfNumber_eq_digest hlo hhi
    exact exec_rdreg_of_misuse hreg (by simp [readIsMisuse, hd])
  · obtain ⟨c, hc⟩ := hs.exists_chain hp
    refine ⟨c, hc, exec_rdreg_of_value (regOfNumber_chain j hj) (by simp [readIsMisuse, hp]) ?_⟩
    simp only [regValue, hc]
    rfl
  · obtain ⟨d, hdigest⟩ : ∃ d, s.digest = some d :=
      Option.ne_none_iff_exists'.1 fun hnone => by simpa [hd] using hs.digestPresent.1 hnone
    exact ⟨d, hdigest, exec_rdreg_digest hd hdigest hk⟩

end Sys2Proof.Machine

namespace Sys2Proof.Machine

/-! The Driver's transitions (R180): the cells of an unlocked core that are no MisuseError. -/

theorem exec_next_unique {i : Instr} {s t u : State} (h : exec i s = .next t) (hu : exec i s = .next u) : t = u :=
  Host.Outcome.next.inj (h.symm.trans hu)

section
variable {s t : State} (hs : s.Inv) (hl : locked s = false)
include hs hl

theorem State.Inv.push_transition (hp : s.phase = .init) {b : Byte} (h : exec (.push b) s = .next t) :
    t.phase = .init ∧ t.dvalid = false ∧ (t = s.raised .inputTooLarge ∨ Memory.read t.msg s.len = some b) := by
  have hd := hs.dvalid_eq_false (by simp [hp])
  rcases Nat.lt_or_ge s.len s.capEff with hroom | hfull
  · obtain rfl := exec_next_unique h (exec_push_of_room hl hp hroom b)
    exact ⟨hp, hd, .inr (Memory.read_write_same _ _ _)⟩
  · obtain rfl := exec_next_unique h (exec_push_of_full hl hp hfull b)
    exact ⟨(s.raised_phase _).trans hp, (s.raised_dvalid _).trans hd, .inl rfl⟩

theorem State.Inv.pad_transition (hp : s.phase = .init) (h : exec .pad s = .next t) :
    t.phase = .absorbing ∧ t.dvalid = false := by
  obtain rfl := exec_next_unique h (exec_pad_of_init hl hp)
  exact ⟨rfl, hs.dvalid_eq_false (by simp [hp])⟩

/-- BLK + 1 is at most NBLK, so the block after which BLK + 1 is not below NBLK is the last. -/
theorem State.Inv.compress_transition (hp : s.phase = .absorbing) (h : exec .compress s = .next t) :
    t.dvalid = false ∧ t.phase = if s.blk.toNat + 1 < s.nblk.toNat then .absorbing else .finalized := by
  obtain ⟨-, -, absorbed⟩ := compressAbsorbsTheNextBlockOrRaises s
  obtain ⟨c, b, -, -, hexec⟩ := absorbed hs hl hp
  obtain rfl := exec_next_unique h hexec
  refine ⟨hs.dvalid_eq_false (by simp [hp]), ?_⟩
  have hlt := (hs.absorbing hp).1
  have hlast : s.blk.toNat + 1 = s.nblk.toNat ↔ ¬ s.blk.toNat + 1 < s.nblk.toNat := by omega
  simp only [hlast, ite_not]

theorem State.Inv.finalize_transition (hp : s.phase = .finalized) (h : exec .finalize s = .next t) :
    if s.dvalid = false then t.phase = .finalized ∧ t.dvalid = true else t = s.raised .misuseError := by
  obtain ⟨-, -, again, serialized⟩ := finalizeSerializesTheDigestOrRaises s
  split
  next hd =>
    obtain ⟨c, -, hexec⟩ := serialized hs hl hp hd
    obtain rfl := exec_next_unique h hexec
    exact ⟨hp, rfl⟩
  next hd => exact exec_next_unique h (again hl hp (by simpa using hd))

end

/-- R233: the lock refuses every command but INIT and RDREG. -/
theorem lockRefuses_iff {i : Instr} : lockRefuses i = true ↔ i ≠ .init ∧ ∀ r, i ≠ .rdreg r := by
  cases i <;> simp [lockRefuses]

/-- Settles O30: what the lock refuses, then the command and the phase, row by row. -/
theorem driverTransitions : Obligations.DriverTransitions := by
  intro s t i hs h
  split
  case isTrue hlock =>
    obtain ⟨hl, hi⟩ := hlock
    exact exec_next_unique h (exec_of_lockRefuses hl (lockRefuses_iff.2 hi))
  case isFalse hlock =>
    have unlocked (hi : lockRefuses i = true) : locked s = false := by
      simpa [lockRefuses_iff.1 hi] using hlock
    cases i with
    | init =>
      obtain rfl := exec_next_unique h (exec_init s)
      exact ⟨rfl, rfl⟩
    | rdreg r => rcases exec_rdreg_next_cases h with ⟨d, rfl⟩ | rfl | rfl <;> simp
    | push b =>
      cases hp : s.phase with
      | init => exact hs.push_transition (unlocked rfl) hp h
      | _ => exact exec_next_unique h (exec_push_of_not_init (by simp [hp]) b)
    | pad =>
      cases hp : s.phase with
      | init => exact hs.pad_transition (unlocked rfl) hp h
      | _ => exact exec_next_unique h (exec_pad_of_not_init (by simp [hp]))
    | compress =>
      cases hp : s.phase with
      | absorbing => exact hs.compress_transition (unlocked rfl) hp h
      | _ => exact exec_next_unique h (exec_compress_of_not_absorbing (by simp [hp]))
    | finalize =>
      cases hp : s.phase with
      | finalized => exact hs.finalize_transition (unlocked rfl) hp h
      | _ => exact exec_next_unique h (exec_finalize_of_not_finalized (by simp [hp]))

end Sys2Proof.Machine

namespace Sys2Proof.Machine

/-! Equal hardware (R182, R207): what a command reads of two states is equal, and its updates keep the hardware
equal. -/

section
variable {s u : State} (h : s.SameHardware u)
include h

theorem State.SameHardware.locked_eq : locked s = locked u := by
  simp only [locked, h.eMisuse, h.eTooLarge, h.eIllegal]

theorem State.SameHardware.len_eq : s.len = u.len := State.len_congr h.lcnt

theorem State.SameHardware.capEff_eq : s.capEff = u.capEff := State.capEff_congr h.cfg

theorem State.SameHardware.framed_eq : s.framed = u.framed := by simp only [State.framed, h.phase]

theorem State.SameHardware.paddedLength_eq : s.paddedLength = u.paddedLength := by
  simp only [State.paddedLength, h.nblk]

theorem State.SameHardware.msgRead_eq (p : Nat) : msgRead s p = msgRead u p := by
  simp only [msgRead, h.msg, h.len_eq]

theorem State.SameHardware.padByte_eq (p : Nat) : padByte s p = padByte u p := by
  simp only [padByte, h.framed_eq, h.paddedLength_eq, h.len_eq, h.msgRead_eq, h.lcnt]

theorem State.SameHardware.padBytes_eq (start n : Nat) : padBytes s start n = padBytes u start n := by
  induction n with
  | zero => rfl
  | succ n ih => simp only [padBytes, ih, h.padByte_eq]

theorem State.SameHardware.blockAt_eq (i : Nat) : blockAt s i = blockAt u i := by
  simp only [blockAt, h.nblk, h.padBytes_eq]

theorem State.SameHardware.readIsMisuse_eq (reg : Reg) : readIsMisuse s reg = readIsMisuse u reg := by
  simp only [readIsMisuse, h.phase, h.dvalid]

theorem State.SameHardware.statusWord_eq : statusWord s = statusWord u := by
  simp only [statusWord, h.eIllegal, h.eTooLarge, h.eMisuse, h.dvalid, h.phase]

theorem State.SameHardware.regValue_eq (reg : Reg) : regValue s reg = regValue u reg := by
  simp only [regValue, h.h, h.statusWord_eq, h.lcnt, h.blk, h.nblk, h.digest]

theorem State.SameHardware.reply (r r' : Response) : (s.reply r).SameHardware (u.reply r') := { h with }

theorem State.SameHardware.raised (e : Exc) : (s.raised e).SameHardware (u.raised e) := by
  cases e with
  | illegalCommand => exact { h with eIllegal := rfl }
  | misuseError => exact { h with eMisuse := rfl }
  | inputTooLarge => exact { h with eTooLarge := rfl }

theorem State.SameHardware.append (b : Byte) : (s.append b).SameHardware (u.append b) :=
  { h with
    msg := by simp only [State.append_msg, h.msg, h.len_eq]
    lcnt := by simp only [State.append_lcnt, h.lcnt] }

theorem State.SameHardware.frame : s.startPadding.frame.SameHardware u.startPadding.frame :=
  { h with
    phase := rfl
    blk := rfl
    nblk := by simp only [State.frame_nblk, State.startPadding_len, h.len_eq] }

theorem State.SameHardware.absorb (c : Chain) : (s.absorb c).SameHardware (u.absorb c) :=
  { h with
    phase := by simp only [State.absorb_phase, h.phase, h.blk, h.nblk]
    h := rfl
    blk := by simp only [State.absorb_blk, h.blk] }

theorem State.SameHardware.serialize (c : Chain) : (s.serialize c).SameHardware (u.serialize c) :=
  { h with
    digest := rfl
    dvalid := rfl }

end

/-- R182: INIT writes every field of the hardware, so what it leaves depends on the configuration alone. -/
theorem State.start_sameHardware {s u : State} (h : s.cfg = u.cfg) : s.start.SameHardware u.start :=
  ⟨h, rfl, rfl, rfl, rfl, rfl, rfl, rfl, rfl, rfl, rfl, rfl⟩

/-- R207: when the result x of a command from s is a next state, so is the result y of the same command from u, with
the same hardware and the same response. -/
def SameOutcome (s u : State) (x y : Result) : Prop :=
  ∀ t, x = .next t →
    ∃ v r, y = .next v ∧ t.SameHardware v ∧ t.responses = s.responses ++ [r] ∧ v.responses = u.responses ++ [r]

theorem SameOutcome.fault {s u : State} (f : Fault) (y : Result) : SameOutcome s u (.fault f) y := nofun

theorem SameOutcome.raise {s u : State} (h : s.SameHardware u) (e : Exc) :
    SameOutcome s u (raise e s) (raise e u) := by
  rintro t ht
  obtain rfl := raise_eq_next_iff.1 ht
  exact ⟨_, _, rfl, h.raised e, s.raised_responses e, u.raised_responses e⟩

/-- The effect of a command returns no response of its own: the one response is `respond`'s. -/
theorem SameOutcome.respond {s u s' u' : State} (h : s'.SameHardware u') (hs : s'.responses = s.responses)
    (hu : u'.responses = u.responses) (d : Word) : SameOutcome s u (respond d s') (respond d u') := by
  rintro t ht
  obtain rfl := respond_eq_next_iff.1 ht
  exact ⟨_, ⟨0, d⟩, rfl, h.reply _ _, by rw [State.reply_responses, hs], by rw [State.reply_responses, hu]⟩

section
variable {s u : State} (h : s.SameHardware u)
include h

theorem execPush_sameOutcome (b : Byte) : SameOutcome s u (execPush b s) (execPush b u) := by
  simp only [execPush, ← h.locked_eq, ← h.phase, ← h.capEff_eq, ← h.len_eq]
  split
  · exact .raise h _
  split
  · exact .raise h _
  split
  · exact .raise h _
  · exact .respond (h.append b) rfl rfl 0

theorem execPad_sameOutcome : SameOutcome s u (execPad s) (execPad u) := by
  simp only [execPad, ← h.locked_eq, ← h.phase]
  split
  · exact .raise h _
  split
  · exact .raise h _
  · exact .respond h.frame rfl rfl 0

theorem execCompress_sameOutcome : SameOutcome s u (execCompress s) (execCompress u) := by
  simp only [execCompress, ← h.locked_eq, ← h.phase, ← h.h, ← h.blk, ← h.blockAt_eq]
  split
  · exact .raise h _
  split
  · exact .raise h _
  split
  · exact .fault _ _
  · exact .fault _ _
  · exact .respond (h.absorb _) rfl rfl 0

theorem execFinalize_sameOutcome : SameOutcome s u (execFinalize s) (execFinalize u) := by
  simp only [execFinalize, ← h.locked_eq, ← h.phase, ← h.dvalid, ← h.h]
  split
  · exact .raise h _
  split
  · exact .raise h _
  split
  · exact .raise h _
  split
  · exact .fault _ _
  · exact .respond (h.serialize _) rfl rfl 0

theorem execRdreg_sameOutcome (r : Byte) : SameOutcome s u (execRdreg r s) (execRdreg r u) := by
  simp only [execRdreg, ← h.readIsMisuse_eq, ← h.regValue_eq]
  split
  · exact .raise h _
  split
  · exact .raise h _
  split
  · exact .fault _ _
  · exact .respond h rfl rfl _

theorem exec_sameOutcome (i : Instr) : SameOutcome s u (exec i s) (exec i u) := by
  cases i with
  | init => exact .respond (State.start_sameHardware h.cfg) rfl rfl 0
  | push b => exact execPush_sameOutcome h b
  | pad => exact execPad_sameOutcome h
  | compress => exact execCompress_sameOutcome h
  | finalize => exact execFinalize_sameOutcome h
  | rdreg r => exact execRdreg_sameOutcome h r

end

/-- Settles O40: INIT overwrites the hardware, and a word of equal hardware states runs as the same command or raises
IllegalCommand in both. -/
theorem initForgetsAndCommandsAreDeterministic : Obligations.InitForgetsAndCommandsAreDeterministic := by
  refine ⟨fun s u hcfg => ⟨_, _, exec_init s, exec_init u, (State.start_sameHardware hcfg).reply _ _⟩, ?_⟩
  intro w s t u h hrun
  have same : SameOutcome s u (runWord w s) (runWord w u) := by
    unfold runWord
    split
    · exact exec_sameOutcome h _
    · exact .raise h _
  exact same t hrun

end Sys2Proof.Machine

namespace Sys2Proof.Machine

/-! Exceptions and the fault log (R230, R235), from what every command word can answer. -/

/-- Settles O24: a response with another code than 0 is that of an exception, whose one update is `State.raised`. -/
theorem exceptionsArePrecise : Obligations.ExceptionsArePrecise := by
  intro w s t r hrun hresp hcode
  rcases runWord_response_cases hrun with ⟨e, rfl, -⟩ | ⟨-, rfl⟩ | ⟨d, -, hd, -⟩
  · cases e with
    | illegalCommand => exact .inl rfl
    | misuseError => exact .inr (.inl rfl)
    | inputTooLarge => exact .inr (.inr rfl)
  · obtain rfl : r = ⟨0, 0⟩ := by simpa [eq_comm] using hresp
    exact absurd rfl hcode
  · obtain rfl : r = ⟨0, d⟩ := by simpa [hd, eq_comm] using hresp
    exact absurd rfl hcode

/-- Settles O28: an exception logs itself, and the other two cases of `runWord_response_cases` leave the log. -/
theorem faultLogRecordsEveryException : Obligations.FaultLogRecordsEveryException := by
  intro w s t r hrun hresp
  rcases runWord_response_cases hrun with ⟨e, rfl, -⟩ | ⟨-, rfl⟩ | ⟨d, -, hd, -, hlog⟩
  · obtain rfl : r = ⟨excCode e, 0⟩ := by simpa [eq_comm] using hresp
    cases e <;> simp [excCode]
  · obtain rfl : r = ⟨0, 0⟩ := by simpa [eq_comm] using hresp
    simp
  · obtain rfl : r = ⟨0, d⟩ := by simpa [hd, eq_comm] using hresp
    simp [hlog]

/-! The lock (R233). -/

/-- Whether a read is a misuse does not depend on the error flags. -/
theorem readIsMisuse_flags (s : State) (reg : Reg) (a b c : Bool) :
    readIsMisuse { s with eMisuse := a, eTooLarge := b, eIllegal := c } reg = readIsMisuse s reg := by
  cases reg <;> rfl

/-- R233: RDREG of a register other than STATUS answers the same response whatever the error flags are. -/
theorem exec_rdreg_flags {r : Byte} (hr : r ≠ 0x08) {s t : State} (h : exec (.rdreg r) s = .next t) (a b c : Bool) :
    ∃ u, exec (.rdreg r) { s with eMisuse := a, eTooLarge := b, eIllegal := c } = .next u ∧
      u.responses = t.responses := by
  change execRdreg r s = _ at h
  rcases execRdreg_cases r s with ⟨hreg, e⟩ | ⟨reg, hreg, ⟨hm, e⟩ | ⟨hm, ⟨f, -, e⟩ | ⟨d, hd, e⟩⟩⟩ <;>
    rw [h] at e <;> cases e
  · exact ⟨_, exec_rdreg_of_no_register hreg _, rfl⟩
  · exact ⟨_, exec_rdreg_of_misuse hreg ((readIsMisuse_flags s reg a b c).trans hm), rfl⟩
  · have hstatus : reg ≠ .status := by
      rintro rfl
      exact hr (regOfNumber_status r hreg)
    exact ⟨_, exec_rdreg_of_value hreg ((readIsMisuse_flags s reg a b c).trans hm)
      ((regValue_flags s hstatus a b c).trans hd), rfl⟩

/-- Settles O26: the lock refuses by `exec_of_lockRefuses`, INIT clears the flags, and RDREG does not read them. -/
theorem lockRefusesAllButInitAndRdreg : Obligations.LockRefusesAllButInitAndRdreg := by
  refine fun s => ⟨locked_eq_true_iff s, fun hl i hi => exec_of_lockRefuses hl ?_, ⟨_, exec_init s, rfl⟩,
    fun _ r t hr h => exec_rdreg_flags hr h false false false⟩
  rcases hi with ⟨b, rfl⟩ | rfl | rfl | rfl <;> rfl

/-! The exception due (R231), and that a command in a state of the invariant always answers. -/

/-- R231: from s the result x is the exception due, or a response of code 0 where none is. -/
def AnswersDue (s : State) (due : Option Exc) (x : Result) : Prop :=
  match due with
  | some e => x = .next (s.raised e)
  | none => ∃ t d, x = .next t ∧ t.responses = s.responses ++ [⟨0, d⟩]

theorem AnswersDue.raised {s : State} {due : Option Exc} {x : Result} {e : Exc} (hdue : due = some e)
    (hx : x = .next (s.raised e)) : AnswersDue s due x := by
  subst hdue
  exact hx

theorem AnswersDue.responded {s t : State} {due : Option Exc} {x : Result} {d : Word} (hdue : due = none)
    (hx : x = .next t) (ht : t.responses = s.responses ++ [⟨0, d⟩]) : AnswersDue s due x := by
  subst hdue
  exact ⟨t, d, hx, ht⟩

theorem AnswersDue.exists_next {s : State} {due : Option Exc} {x : Result} (h : AnswersDue s due x) :
    ∃ t, x = .next t := by
  cases due with
  | none =>
    obtain ⟨t, -, hx, -⟩ := h
    exact ⟨t, hx⟩
  | some e => exact ⟨_, h⟩

/-- R231: RDREG is not refused by the lock and needs no room in the buffer. -/
theorem dueException_rdreg (s : State) (r : Byte) : dueException s (.rdreg r) =
    if unassignedNumber r then some .illegalCommand
    else if misusesPhase s (.rdreg r) then some .misuseError else none := by
  simp [dueException, lockRefuses]

/-- R36: the numbers of H and of DIGEST lie in their ranges, and no other register's number does. -/
theorem regOfNumber_range {r : Byte} {reg : Reg} (hreg : regOfNumber r = some reg) :
    (r.toNat < 0x08 ↔ ∃ j, reg = .chain j) ∧
    (0x20 ≤ r.toNat ∧ r.toNat < 0x40 ↔ ∃ k, reg = .digest k) := by
  unfold regOfNumber at hreg
  split_ifs at hreg <;> cases hreg <;> simp <;> omega

/-- R223 M7, M8: the reads that are a misuse, by number as by register. -/
theorem misusesPhase_rdreg {r : Byte} {reg : Reg} (hreg : regOfNumber r = some reg) (s : State) :
    misusesPhase s (.rdreg r) = readIsMisuse s reg := by
  obtain ⟨hchain, hdigest⟩ := regOfNumber_range hreg
  have hranges : misusesPhase s (.rdreg r) =
      (decide (∃ j, reg = .chain j) && decide (s.phase = .idle) || decide (∃ k, reg = .digest k) && !s.dvalid) := by
    simp only [misusesPhase, hchain, ← Bool.decide_and, hdigest]
  rw [hranges]
  cases reg <;> simp [readIsMisuse]

section
variable {s : State}

theorem execPush_answersDue (b : Byte) : AnswersDue s (dueException s (.push b)) (execPush b s) := by
  rcases execPush_cases b s with ⟨hrefused, h⟩ | ⟨hl, hp, hfull, h⟩ | ⟨hl, hp, hroom, h⟩
  · refine .raised ?_ h
    rcases hrefused with hl | hp
    · simp [dueException, lockRefuses, hl]
    · simp [dueException, misusesPhase, hp]
  · exact .raised (by simp [dueException, misusesPhase, hl, hp, hfull]) h
  · exact .responded (by simp [dueException, misusesPhase, hl, hp, hroom]) h rfl

theorem execPad_answersDue : AnswersDue s (dueException s .pad) (execPad s) := by
  rcases execPad_cases s with ⟨hrefused, h⟩ | ⟨hl, hp, h⟩
  · refine .raised ?_ h
    rcases hrefused with hl | hp
    · simp [dueException, lockRefuses, hl]
    · simp [dueException, misusesPhase, hp]
  · exact .responded (by simp [dueException, misusesPhase, hl, hp]) h rfl

theorem State.Inv.execCompress_answersDue (hs : s.Inv) :
    AnswersDue s (dueException s .compress) (execCompress s) := by
  by_cases hl : locked s = true
  · exact .raised (by simp [dueException, lockRefuses, hl]) (exec_of_lockRefuses hl (i := .compress) rfl)
  rw [Bool.not_eq_true] at hl
  by_cases hp : s.phase = .absorbing
  · obtain ⟨-, -, absorbed⟩ := compressAbsorbsTheNextBlockOrRaises s
    obtain ⟨c, b, -, -, h⟩ := absorbed hs hl hp
    exact .responded (by simp [dueException, misusesPhase, hl, hp]) h rfl
  · exact .raised (by simp [dueException, misusesPhase, hp]) (exec_compress_of_not_absorbing hp)

theorem State.Inv.execFinalize_answersDue (hs : s.Inv) :
    AnswersDue s (dueException s .finalize) (execFinalize s) := by
  rcases execFinalize_cases s with ⟨hrefused, h⟩ | ⟨hl, hp, hd, ⟨hnone, -⟩ | ⟨c, -, h⟩⟩
  · refine .raised ?_ h
    rcases hrefused with hl | hp | hd
    · simp [dueException, lockRefuses, hl]
    · simp [dueException, misusesPhase, hp]
    · simp [dueException, misusesPhase, hd]
  · simp [hs.chainPresent.1 hnone] at hp
  · exact .responded (by simp [dueException, misusesPhase, hl, hp, hd]) h rfl

theorem State.Inv.execRdreg_answersDue (hs : s.Inv) (r : Byte) :
    AnswersDue s (dueException s (.rdreg r)) (execRdreg r s) := by
  rw [dueException_rdreg]
  rcases execRdreg_cases r s with ⟨hreg, h⟩ | ⟨reg, hreg, hcases⟩
  · exact .raised (by simp [regOfNumber_eq_none_iff r |>.1 hreg]) h
  have hassigned : unassignedNumber r = false := by simp [← regOfNumber_eq_none_iff, ← Bool.not_eq_true, hreg]
  rw [misusesPhase_rdreg hreg]
  rcases hcases with ⟨hm, h⟩ | ⟨hm, ⟨f, hf, -⟩ | ⟨d, -, h⟩⟩
  · exact .raised (by simp [hassigned, hm]) h
  · obtain ⟨d, hd⟩ := regValue_ok hs.chainPresent.1 hs.digestPresent.1 hm
    cases hf.symm.trans hd
  · exact .responded (by simp [hassigned, hm]) h rfl

/-- R231: every command of a state of the invariant answers the exception due, or responds with code 0. -/
theorem State.Inv.exec_answersDue (hs : s.Inv) (i : Instr) : AnswersDue s (dueException s i) (exec i s) := by
  cases i with
  | init => exact .responded (by simp [dueException, lockRefuses, misusesPhase]) (exec_init s) rfl
  | push b => exact execPush_answersDue b
  | pad => exact execPad_answersDue
  | compress => exact hs.execCompress_answersDue
  | finalize => exact hs.execFinalize_answersDue
  | rdreg r => exact hs.execRdreg_answersDue r

theorem State.Inv.runWord_answersDue (hs : s.Inv) (w : Word) :
    AnswersDue s (dueExceptionOfWord s w) (runWord w s) := by
  unfold dueExceptionOfWord
  split
  case h_1 why hdec => exact runWord_of_decode_illegal hdec s
  case h_2 i hdec =>
    rw [runWord_of_decode_command hdec]
    exact hs.exec_answersDue i

end

/-- Settles O25: each word answers the exception due by `State.Inv.runWord_answersDue`, whose code is `excCode`. -/
theorem commandsReportTheFirstExceptionDue : Obligations.CommandsReportTheFirstExceptionDue := by
  intro s w hs
  have h := hs.runWord_answersDue w
  cases hdue : dueExceptionOfWord s w with
  | none =>
    rw [hdue] at h
    obtain ⟨t, d, hrun, hresp⟩ := h
    exact ⟨t, ⟨0, d⟩, hrun, hresp, rfl⟩
  | some e =>
    rw [hdue] at h
    exact ⟨_, _, h, s.raised_responses e, by cases e <;> rfl⟩

/-! Steps on other events than a command (R222, R246, R250), and that no step stops. -/

/-- R246: with no event the step changes nothing. -/
theorem step_of_port_nil {s : State} (h : s.port = []) : step s = .next s := by
  simp only [step, servePort, h]

/-- Settles O8: an Illegal word raises IllegalCommand once it is off the port, and `State.resetEvent` leaves the
configuration and the model's records. -/
theorem stepOnOtherEventsAndOnIdlePort : Obligations.StepOnOtherEventsAndOnIdlePort := by
  refine ⟨fun s w rest why hport hdec => ?_, fun s rest hport => ?_, fun s => step_of_port_nil⟩
  · exact (step_of_port_cons hport).trans (runWord_of_decode_illegal hdec _)
  · exact ⟨_, step_of_port_cons hport, rfl, rfl, rfl, rfl⟩

/-- Settles O37: an idle port and a reset always answer, and a word does by `State.Inv.runWord_answersDue`. -/
theorem invariantStatesNeverStop : Obligations.InvariantStatesNeverStop := by
  intro s hs
  cases hport : s.port with
  | nil => exact ⟨s, step_of_port_nil hport⟩
  | cons e rest =>
    rw [step_of_port_cons hport]
    cases e with
    | command w => exact ((hs.setPort rest).runWord_answersDue w).exists_next
    | reset => exact ⟨_, rfl⟩

end Sys2Proof.Machine

namespace Sys2Proof.Machine

/-! The values the reset event sets (R250). -/

/-- R250: a reset event is taken off the port and `State.resetEvent` follows. -/
theorem step_of_port_reset {s : State} {rest : List HostEvent} (h : s.port = .reset :: rest) :
    step s = .next (s.setPort rest).resetEvent :=
  step_of_port_cons h

/-- R40, R250: no position of MSG holds a value after the reset event. -/
theorem State.resetEvent_msg_read (s : State) (p : Nat) : Memory.read s.resetEvent.msg p = none := rfl

/-- Settles O9: the step answers `State.resetEvent`, which sets each value of R40 and keeps the responses. -/
theorem resetEventSetsTheResetValues : Obligations.ResetEventSetsTheResetValues := by
  intro s rest hport
  exact ⟨_, step_of_port_reset hport, State.resetEvent_phase _, State.resetEvent_lcnt _, State.resetEvent_blk _,
    State.resetEvent_nblk _, State.resetEvent_dvalid _, State.resetEvent_eMisuse _, State.resetEvent_eTooLarge _,
    State.resetEvent_eIllegal _, State.resetEvent_h _, State.resetEvent_digest _, State.resetEvent_msg_read _,
    State.resetEvent_responses _⟩

end Sys2Proof.Machine
